-- ==== Sys2Proof/Word.lean ====
section
/-! DEFINITION. The value types of the block (00_scope.md R6, R7) and the register groups made of
32-bit words (10_state.md R30, R36, R40). Their conversions stand in Sys2Proof/Machine/Bytes.lean. -/

namespace Sys2Proof

/-- A byte: an unsigned 8-bit value (R6). -/
abbrev Byte := BitVec 8

/-- A word: an unsigned 32-bit value, the width of every register (R7, R20). -/
abbrev Word := BitVec 32

/-- A 16-byte sequence as the primitive port carries it: byte `i` is bits `8i+7 : 8i` (R84). -/
abbrev Block := BitVec 128

/-- Four consecutive registers `X0..X3` holding a 16-byte sequence (R30). -/
structure Quad where
  x0 : Word
  x1 : Word
  x2 : Word
  x3 : Word
  deriving DecidableEq, Repr

/-- Two registers holding a 64-bit quantity: `LO` bits 31:0, `HI` bits 63:32 (R33, R40). -/
structure Pair where
  lo : Word
  hi : Word
  deriving DecidableEq, Repr

/-- A hash state: exactly five words (R36, R190). -/
structure HashState where
  h0 : Word
  h1 : Word
  h2 : Word
  h3 : Word
  h4 : Word
  deriving DecidableEq, Repr

end Sys2Proof
end

