-- ==== Sys2Proof/Config.lean ====
section
/-! DEFINITION. What one implementation of the block fixes (00_scope.md R5), the external primitive
(R9, R84), and the free values that the spec leaves unspecified (93_implementation_defined.md U2 to U4). -/

namespace Sys2Proof.Config

/-- `BUF_SIZE`, in bytes (R5, R22, R39). -/
abbrev bufSize : Nat := 4096

/-- The word that `ID` reads (R21). -/
def idWord : Word := 0x504D4231#32

/-- The external single-block cipher, one permutation of the blocks for each key. R9 gives a pair
of total functions with `D(E(b,k),k) = b`; on a finite set of blocks such a pair is a permutation and its
inverse, so this constant is an arbitrary primitive in the sense of R9. It has no body.
DEDUCED (log entry 1), safe. -/
opaque primitive : Block → Equiv.Perm Block

/-- `E(block, key)` (R9). -/
def encrypt (b k : Block) : Block := primitive k b

/-- `D(block, key)` (R9). -/
def decrypt (b k : Block) : Block := (primitive k).symm b

/-- The word that draw number `n` gives to a read while busy (R275, U2). It has no body: any value.
DESIGN CHOICE of form (log entry 4), safe. -/
opaque freeWord : Nat → Word

/-- The byte that draw number `n` gives to address `a` of `BUF` (R42, R280, U3; R272, U4). It has no
body: any value. DESIGN CHOICE of form (log entries 3 and 5), safe. -/
opaque freeByte : Nat → Nat → Byte

end Sys2Proof.Config
end

