-- ==== Sys2Proof/Syntax.lean ====
section
/-! DEFINITION. The syntax of everything the block is given: its thirteen instructions (30_encoding.md
R104), its exceptions' names (60_exceptions.md R230), its registers' names (10_state.md R20), the host's bus
transactions (20_memory.md R72, R73), the events that reach the block, and the host-side notation
(30_encoding.md R108, R109). -/

namespace Sys2Proof

/-- The instructions (R104), one constructor a row of the opcode table. None has an operand field (R107). -/
inductive Instr where
  | pkcs7Pad
  | pkcs7Unpad
  | cbcEnc
  | cbcDec
  | ctrEnc
  | ctrDec
  | ksInit
  | ksNext
  | sha1Pad
  | sha1Padf
  | sha1Upd
  | sha1Cmp
  | sha1Cmpi
  deriving DecidableEq, Repr

/-- The exceptions a command can end in (R230). -/
inductive Exc where
  | invalidPadding
  | illegalMode
  | illegalCommand
  | badLength
  | badRange
  | badBlockSize
  deriving DecidableEq, Repr

/-- The registers of R20 by name; the members of a group by their number. -/
inductive Reg where
  | id
  | cap
  | ctrl
  | ien
  | status
  | cmd
  | src
  | len
  | dst
  | outlen
  | blksz
  | key (j : Fin 4)
  | iv (j : Fin 4)
  | nonceLo
  | nonceHi
  | cntLo
  | cntHi
  | ksb (j : Fin 4)
  | shaH (j : Fin 5)
  | priorLo
  | priorHi
  | flenLo
  | flenHi
  deriving DecidableEq, Repr

/-- What a mapped word-aligned offset of the register space names (R71): a register, or the four bytes of
`BUF` from byte address `a` on. -/
inductive Target where
  | reg (r : Reg)
  | window (a : Nat)
  deriving DecidableEq, Repr

/-- A host bus transaction (R72, R73): the byte offset and the access width in bits that the host presents,
and for a write the value. -/
inductive Transaction where
  | read (off width : Nat)
  | write (off width : Nat) (v : Word)
  deriving DecidableEq, Repr

/-- What can happen to the block, one at a time (R80, R81): a bus transaction, the engine's turn, an edge of
the reset input (R270), and the host's loop `WAIT` (R109), one read of `STATUS` at a time. `wait n` is that loop
where `n` reads after the next one still find the block busy if the next one does: a read that finds `BUSY = 0` ends
it, whatever `n` is (`State.waitRead` in Machine/Engine.lean, log entry 10). -/
inductive Event where
  | bus (t : Transaction)
  | engine
  | rstAssert
  | rstRelease
  | wait (n : Nat)
  deriving DecidableEq, Repr

/-- The bus response of a transaction: `OK(v)` of a read, `OK` of a write, `BusError` (R72 to R74). -/
inductive BusResponse where
  | okRead (v : Word)
  | okWrite
  | busError
  deriving DecidableEq, Repr

/-- A line that submits a command word (R108): a mnemonic, `MODE.ENC m`, `MODE.DEC m`, `CMDW word`. -/
inductive CommandLine where
  | instr (i : Instr)
  | modeEnc (m : Nat)
  | modeDec (m : Nat)
  | cmdw (w : Word)
  deriving DecidableEq, Repr

/-- The 64-bit names `WR64` takes (R109). -/
inductive Name64 where
  | nonce
  | prior
  | flen
  deriving DecidableEq, Repr

/-- The 16-byte names `WRBYTES` takes (R109). -/
inductive Name16 where
  | key
  | iv
  deriving DecidableEq, Repr

/-- A line of the host-side notation (R108, R109). -/
inductive Line where
  | wr (r : Reg) (v : Word)
  | rd (r : Reg)
  | command (c : CommandLine)
  | wait
  | wr64 (n : Name64) (v : Nat)
  | wrBytes (n : Name16) (bs : List Byte)
  | wrBuf (a : Nat) (bs : List Byte)
  | rdBuf (a n : Nat)
  | run (c : CommandLine)
  deriving DecidableEq, Repr

/-- What a line makes the host do, one after the other (R108, R109): a transaction, or the loop `WAIT`. -/
inductive HostOp where
  | bus (t : Transaction)
  | wait
  deriving DecidableEq, Repr

/-- Where the engine's turn falls at one operation of the host (R81, R281: it is open): before it or not, and for a
`WAIT` after how many further reads that find the block busy (log entry 10). -/
structure Slot where
  engineFirst : Bool
  polls : Nat
  deriving DecidableEq, Repr

end Sys2Proof
end

