-- ==== Sys2Proof/Machine/State.lean ====
section
/-! DEFINITION. The state of the block (10_state.md R20, R44) as plain data, with the model's own fields for what
comes from outside, and its value after hardware reset (R42). -/

namespace Sys2Proof.Machine

/-- The contents of `BUF` that are known: (byte address, byte) pairs, addresses strictly rising (Memory.wf in
Machine/Ops.lean). An address that is not listed has no value here: nothing has written it since the last
hardware reset, and a read of it draws a free byte (R42, R280; `State.bufByte` in Machine/Ops.lean, log entry 3). -/
abbrev Memory := List Host.Cell

/-- The register `STATUS` by its fields (R25). Every other bit of it is hard-wired 0 (R25, U8), so these fields are
the whole register; `Status.toWord` in Machine/Flags.lean is the word the host reads. DEDUCED (log entry 9), safe. -/
structure Status where
  busy : Bool
  done : Bool
  err : Bool
  wrbusy : Bool
  errcode : BitVec 4
  deriving DecidableEq, Repr

/-- The register `IEN` by its fields (R24); its bits 31:2 are hard-wired 0 (log entry 9). -/
structure Ien where
  doneIe : Bool
  errIe : Bool
  deriving DecidableEq, Repr

/-- The state of the machine. The fields down to `buf` are the spec's (R20); the others are the model's own
(INVENTORY.md, State; log entry 6). -/
structure State where
  /-- `IEN` (R24) -/
  ien : Ien
  /-- `STATUS` (R25) -/
  status : Status
  /-- `CMD` (R26): the last accepted command word; with `BUSY` the pending command (R44) -/
  cmd : Word
  /-- `SRC` (R27) -/
  src : Word
  /-- `LEN` (R27) -/
  len : Word
  /-- `DST` (R27) -/
  dst : Word
  /-- `OUTLEN` (R28) -/
  outlen : Word
  /-- `BLKSZ` (R29) -/
  blksz : Word
  /-- `KEY0..KEY3` (R31) -/
  key : Quad
  /-- `IV0..IV3` (R32) -/
  iv : Quad
  /-- `NONCE_LO`, `NONCE_HI` (R33) -/
  nonce : Pair
  /-- `CNT_LO`, `CNT_HI` (R34) -/
  cnt : Pair
  /-- `KSB0..KSB3` (R35) -/
  ksb : Quad
  /-- `SHA_H0..SHA_H4` (R36) -/
  hash : HashState
  /-- `PRIOR_LO`, `PRIOR_HI` (R37) -/
  prior : Pair
  /-- `FLEN_LO`, `FLEN_HI` (R38) -/
  flen : Pair
  /-- `BUF` (R39) -/
  buf : Memory
  /-- the level of `rst_n` (R270); true while it is asserted -/
  rstAsserted : Bool
  /-- the draw that gives the bytes of `BUF` that nothing has written since hardware reset (R42, U3) -/
  bufDraw : Nat
  /-- the next unused draw of a free value (U2 to U4) -/
  draws : Nat
  /-- what is still to come from outside, and the engine's turns, in their one order (R80, R81) -/
  agenda : List Event
  /-- the bus response of the last host transaction; none where there was none or it was not answered -/
  response : Option BusResponse
  deriving DecidableEq, Repr

/-- The machine never stops with a fault: an error of a command is a completion (60_exceptions.md R236, R239) and
a bus error is the response of one transaction (20_memory.md R74), so no fault exists and nobody raises one.
DEDUCED (log entry 8), safe. -/
inductive Fault where
  deriving DecidableEq, Repr

/-- Why the model would refuse an instruction. -/
inductive Refusal where
  /-- An instruction that has no meaning yet: raised by an arm of `exec` only, and by none of them now. Safe. -/
  | notModelled (mnemonic : String)
  deriving DecidableEq, Repr

/-- The 16-byte register groups after reset (R42). -/
def zeroQuad : Quad := ⟨0#32, 0#32, 0#32, 0#32⟩

/-- The 64-bit register groups after reset (R42). -/
def zeroPair : Pair := ⟨0#32, 0#32⟩

/-- The block right after hardware reset (R42, R270): every register holds the reset value of R20's table, no byte
of `BUF` is known, and nothing is under way. The model's own fields: nothing is to come from outside, draw 0 gives
the bytes of `BUF`, draw 1 is the next (DESIGN CHOICE, log entry 6). -/
def State.reset : State where
  ien := ⟨false, false⟩
  status := ⟨false, false, false, false, 0#4⟩
  cmd := 0#32
  src := 0#32
  len := 0#32
  dst := 0#32
  outlen := 0#32
  blksz := 0#32
  key := zeroQuad
  iv := zeroQuad
  nonce := zeroPair
  cnt := zeroPair
  ksb := zeroQuad
  hash := ⟨0#32, 0#32, 0#32, 0#32, 0#32⟩
  prior := zeroPair
  flen := zeroPair
  buf := []
  rstAsserted := false
  bufDraw := 0
  draws := 1
  agenda := []
  response := none

end Sys2Proof.Machine
end

