-- ==== Sys2Proof/Machine/Bytes.lean ====
section
/-! DEFINITION. Byte sequences (00_scope.md R6) and the conversions between them, numbers, words, blocks and the
register groups (00_scope.md R7, 10_state.md R30, 20_memory.md R75, R84). Little-endian conversions are given by
recursion; big-endian ones reverse them. -/

namespace Sys2Proof

/-- The first `k` bytes of a number, least significant first: byte `i` is `(n div 256^i) mod 256` (R7, `le64`). -/
def leBytes : Nat → Nat → List Byte
  | 0, _ => []
  | k + 1, n => BitVec.ofNat 8 n :: leBytes k (n / 256)

/-- The number whose bytes, least significant first, are the sequence (R75). -/
def leNat : List Byte → Nat
  | [] => 0
  | b :: bs => b.toNat + 256 * leNat bs

/-- `le64(n)` (R7). -/
def le64 (n : Nat) : List Byte := leBytes 8 n

/-- `be64(n)` (R7). -/
def be64 (n : Nat) : List Byte := (leBytes 8 n).reverse

/-- `be32(w)` (R7). -/
def be32 (w : Word) : List Byte := (leBytes 4 w.toNat).reverse

/-- `word_be(s)` (R7). -/
def wordBe (s : List Byte) : Word := BitVec.ofNat 32 (leNat s.reverse)

/-- The bus word carrying four bytes, the first in bits 7:0 (R75, R76). -/
def wordLe (s : List Byte) : Word := BitVec.ofNat 32 (leNat s)

/-- The four bytes of a bus word, bits 7:0 first (R75, R76). -/
def bytesOfWord (w : Word) : List Byte := leBytes 4 w.toNat

/-- `xor(a, b)` of two byte sequences of equal length (R7). -/
def xorBytes (a b : List Byte) : List Byte := List.zipWith (· ^^^ ·) a b

/-- `rotl(w, n)` for `0 < n < 32` (R7). -/
def rotl (w : Word) (n : Nat) : Word := (w <<< n) ||| (w >>> (32 - n))

/-- The first `k` pieces of `n` bytes each of a sequence, in order (R7, `blocks16`, `chunks64`). -/
def pieces (n : Nat) : Nat → List Byte → List (List Byte)
  | 0, _ => []
  | k + 1, s => s.take n :: pieces n k (s.drop n)

/-- The block on the primitive port whose bytes are the sequence: byte `i` is bits `8i+7 : 8i` (R84). -/
def blockOfBytes (s : List Byte) : Block := BitVec.ofNat 128 (leNat s)

/-- The 16 bytes of a block (R84). -/
def bytesOfBlock (b : Block) : List Byte := leBytes 16 b.toNat

/-- `blocks16(s)` (R7), each piece as a block. -/
def blocks16 (s : List Byte) : List Block := (pieces 16 (s.length / 16) s).map blockOfBytes

/-- The bytes of a list of blocks, in order. -/
def bytesOfBlocks (bs : List Block) : List Byte := bs.flatMap bytesOfBlock

/-- `chunks64(s)` (R7). -/
def chunks64 (s : List Byte) : List (List Byte) := pieces 64 (s.length / 64) s

/-- The 16-byte sequence of a register group: byte `i` is bits `8(i mod 4)+7 : 8(i mod 4)` of `X(i div 4)` (R30). -/
def Quad.bytes (q : Quad) : List Byte :=
  bytesOfWord q.x0 ++ bytesOfWord q.x1 ++ bytesOfWord q.x2 ++ bytesOfWord q.x3

/-- The register group as a block: its bytes on the port (R30, R84). -/
def Quad.toBlock (q : Quad) : Block := q.x3 ++ q.x2 ++ q.x1 ++ q.x0

/-- The register group holding a block (R30, R84). -/
def quadOfBlock (b : Block) : Quad :=
  ⟨b.extractLsb' 0 32, b.extractLsb' 32 32, b.extractLsb' 64 32, b.extractLsb' 96 32⟩

/-- Register `X<j>` of a group (R30). -/
def Quad.get (q : Quad) (j : Fin 4) : Word :=
  match j with
  | 0 => q.x0
  | 1 => q.x1
  | 2 => q.x2
  | 3 => q.x3

/-- The group with register `X<j>` replaced (R30). -/
def Quad.set (q : Quad) (j : Fin 4) (w : Word) : Quad :=
  match j with
  | 0 => { q with x0 := w }
  | 1 => { q with x1 := w }
  | 2 => { q with x2 := w }
  | 3 => { q with x3 := w }

/-- The unsigned 64-bit number in a pair: `HI * 2^32 + LO` (R33). -/
def Pair.toNat (p : Pair) : Nat := p.hi.toNat * 2 ^ 32 + p.lo.toNat

/-- The pair holding a number modulo `2^64` (R34, R40). -/
def pairOfNat (n : Nat) : Pair := ⟨BitVec.ofNat 32 n, BitVec.ofNat 32 (n / 2 ^ 32)⟩

/-- Word `H[j]` of a hash state (R36). -/
def HashState.get (h : HashState) (j : Fin 5) : Word :=
  match j with
  | 0 => h.h0
  | 1 => h.h1
  | 2 => h.h2
  | 3 => h.h3
  | 4 => h.h4

/-- The hash state with word `H[j]` replaced (R36). -/
def HashState.set (h : HashState) (j : Fin 5) (w : Word) : HashState :=
  match j with
  | 0 => { h with h0 := w }
  | 1 => { h with h1 := w }
  | 2 => { h with h2 := w }
  | 3 => { h with h3 := w }
  | 4 => { h with h4 := w }

end Sys2Proof
end

