-- ==== Sys2Proof/Machine/Flags.lean ====
section
/-! DEFINITION. The flags of the block: the register `STATUS` and what sets and clears each of its fields
(10_state.md R25, R43), the exception codes (60_exceptions.md R230), the register `IEN` (10_state.md R24) and the
interrupt output (60_exceptions.md R240). There are no arithmetic condition codes (R43). -/

namespace Sys2Proof

/-- The code an exception leaves in `STATUS.ERRCODE` (R230). -/
def Exc.code : Exc → BitVec 4
  | .invalidPadding => 1#4
  | .illegalMode => 2#4
  | .illegalCommand => 3#4
  | .badLength => 4#4
  | .badRange => 5#4
  | .badBlockSize => 6#4

end Sys2Proof

namespace Sys2Proof.Machine

/-- The word a read of `STATUS` returns (R25): `BUSY` bit 0, `DONE` bit 1, `ERR` bit 2, `WRBUSY` bit 3, `ERRCODE`
bits 11:8, every other bit 0. -/
def Status.toWord (st : Status) : Word :=
  0#20 ++ st.errcode ++ 0#4 ++ BitVec.ofBool st.wrbusy ++ BitVec.ofBool st.err ++ BitVec.ofBool st.done ++
    BitVec.ofBool st.busy

/-- `STATUS` at acceptance (R234): `BUSY` set, `DONE`, `ERR`, `ERRCODE` cleared, `WRBUSY` kept. -/
def Status.accepted (st : Status) : Status :=
  { st with busy := true, done := false, err := false, errcode := 0#4 }

/-- `STATUS` at completion with success (R235). -/
def Status.succeeded (st : Status) : Status :=
  { st with busy := false, done := true, err := false, errcode := 0#4 }

/-- `STATUS` at completion in error with exception `x` (R236). -/
def Status.failed (st : Status) (x : Exc) : Status :=
  { st with busy := false, done := true, err := true, errcode := x.code }

/-- `STATUS` after a host write of `v` to it (R25, R238): a 1 in bit 1, 2 or 3 clears `DONE`, `ERR` or `WRBUSY`;
`BUSY` and `ERRCODE` are read-only. -/
def Status.clearedBy (st : Status) (v : Word) : Status :=
  { st with
    done := st.done && !v.getLsbD 1
    err := st.err && !v.getLsbD 2
    wrbusy := st.wrbusy && !v.getLsbD 3 }

/-- `STATUS` after a discarded host write (R244). -/
def Status.writeDiscarded (st : Status) : Status := { st with wrbusy := true }

/-- The word a read of `IEN` returns (R24): `DONE_IE` bit 0, `ERR_IE` bit 1, every other bit 0. -/
def Ien.toWord (e : Ien) : Word := 0#30 ++ BitVec.ofBool e.errIe ++ BitVec.ofBool e.doneIe

/-- `IEN` after a host write (R24): bits 31:2 of the written word are ignored. -/
def ienOfWord (v : Word) : Ien := ⟨v.getLsbD 0, v.getLsbD 1⟩

/-- The interrupt output (R240): `(DONE and DONE_IE) or (ERR and ERR_IE)`. -/
def State.irq (s : State) : Bool :=
  (s.status.done && s.ien.doneIe) || (s.status.err && s.ien.errIe)

end Sys2Proof.Machine
end

