-- ==== Sys2Proof/Machine/Ops.lean ====
section
/-! DEFINITION. The named operations over memory and registers: the bytes of `BUF` and `MemRead`, `MemWrite`
(20_memory.md R78), the acceptance of a command and the completion of one, with success or by taking an exception
(60_exceptions.md R234 to R237), what ends an error (R238), and the reset of the registers (10_state.md R42). -/

namespace Sys2Proof.Machine

/-! ## The buffer -/

/-- The canonical form of `BUF`: addresses strictly rising and inside the buffer. An unlisted address has no value
of its own, so no entry can be equal to what an unlisted address holds (log entry 3). -/
abbrev Memory.wf (m : Memory) : Prop :=
  m.Pairwise (fun c d => c.1 < d.1) ∧ ∀ c ∈ m, c.1 < Config.bufSize

/-- The known byte at an address, none where nothing has been written there. -/
def Memory.find? : Memory → Nat → Option Byte
  | [], _ => none
  | (b, v) :: m, a => if a = b then some v else Memory.find? m a

/-- Write one byte, keeping the addresses rising. -/
def Memory.write : Memory → Nat → Byte → Memory
  | [], a, v => [(a, v)]
  | (b, w) :: m, a, v =>
    if a < b then (a, v) :: (b, w) :: m
    else if a = b then (a, v) :: m
    else (b, w) :: Memory.write m a v

/-- Write a byte sequence from an address on (R78). -/
def Memory.writeBytes : Memory → Nat → List Byte → Memory
  | m, _, [] => m
  | m, a, v :: vs => Memory.writeBytes (m.write a v) (a + 1) vs

/-- Byte `a` of `BUF`: the known byte, and where there is none, the free byte that the last hardware reset drew for
this address (R42, R280, U3). No read of it faults (R280). -/
def State.bufByte (s : State) (a : Nat) : Byte :=
  (s.buf.find? a).getD (Config.freeByte s.bufDraw a)

/-- `MemRead(addr, n)` (R78). -/
def State.memRead (s : State) (a : Nat) : Nat → List Byte
  | 0 => []
  | n + 1 => s.bufByte a :: State.memRead s (a + 1) n

/-- `MemWrite(addr, len(v), v)` (R78). -/
def State.memWrite (s : State) (a : Nat) (v : List Byte) : State :=
  { s with buf := s.buf.writeBytes a v }

/-- The free bytes that draw `n` gives to the `k` addresses from `a` on (R272, U4). -/
def freeBytes (n : Nat) (a : Nat) : Nat → List Byte
  | 0 => []
  | k + 1 => Config.freeByte n a :: freeBytes n (a + 1) k

/-- Make `k` bytes of `BUF` from `a` on unspecified: fresh free bytes, drawn once (R272, U4; log entry 5). -/
def State.forgetRange (s : State) (a k : Nat) : State :=
  { s with buf := s.buf.writeBytes a (freeBytes s.draws a k), draws := s.draws + 1 }

/-! ## The life of a command -/

/-- Acceptance of the word `w` (R234): `CMD` and `STATUS`; nothing else changes. -/
def State.accept (s : State) (w : Word) : State :=
  { s with cmd := w, status := s.status.accepted }

/-- Completion with success (R235), once the instruction's effect has been made. -/
def State.succeed (s : State) : State :=
  { s with status := s.status.succeeded }

/-- TAKING AN EXCEPTION, completion in error (R236): `OUTLEN` becomes 0 and `STATUS` carries the code; nothing else
changes (R237). The block saves nothing and goes nowhere. -/
def State.takeException (s : State) (x : Exc) : State :=
  { s with outlen := 0#32, status := s.status.failed x }

/-- A host write to `STATUS`: the return from an error, as far as there is one (R238 (a)); the other ways are
`State.accept` and reset. -/
def State.writeStatus (s : State) (v : Word) : State :=
  { s with status := s.status.clearedBy v }

/-- The completion of a command: `check` is the first of its checks that fails (R232), `effect` its effect on the
state, itself an exception where the data are at fault (`InvalidPadding`). An exception is taken from the state the
command started in, so an error is precise (R237). -/
def complete (s : State) (check : Option Exc) (effect : Except Exc State) :
    Host.Outcome State Fault Refusal :=
  match check with
  | some x => .next (s.takeException x)
  | none =>
    match effect with
    | .error x => .next (s.takeException x)
    | .ok t => .next t.succeed

/-- The effect of a command that writes `out` to `BUF` at `DST`: the `MemWrite` and `OUTLEN` (R28, R78). -/
def State.deliver (s : State) (out : List Byte) : State :=
  { s with buf := s.buf.writeBytes s.dst.toNat out, outlen := BitVec.ofNat 32 out.length }

/-- The effect on `OUTLEN` of a command that writes no buffer byte (R28). -/
def State.deliverNothing (s : State) : State :=
  { s with outlen := 0#32 }

/-- Write the hash registers `SHA_H` and `PRIOR`, both in one event (R37, R40). -/
def State.setHash (s : State) (h : HashState) (prior : Nat) : State :=
  { s with hash := h, prior := pairOfNat prior }

/-- Write the keystream registers `KSB` and `CNT` (R34, R35). -/
def State.setKeystream (s : State) (ksb : Quad) (cnt : Pair) : State :=
  { s with ksb := ksb, cnt := cnt }

/-! ## Reset of the registers -/

/-- Every register at its reset value (R42, R271); `BUF` and the model's own fields are kept. -/
def State.resetRegisters (s : State) : State :=
  { State.reset with
    buf := s.buf
    rstAsserted := s.rstAsserted
    bufDraw := s.bufDraw
    draws := s.draws
    agenda := s.agenda
    response := s.response }

end Sys2Proof.Machine
end

