-- ==== Sys2Proof/Machine/Operands.lean ====
section
/-! DEFINITION. The operand forms: every operand is implicit (30_encoding.md R107). The source is `BUF[SRC .. SRC+LEN)`,
the destination starts at `DST`, and the range check is that of 20_memory.md R79. -/

namespace Sys2Proof.Machine

/-- `InBounds(a, n)`, over unbounded integers (R79). -/
def inBounds (a n : Nat) : Bool := decide (a + n ≤ Config.bufSize)

/-- `Overlap(a1, n1, a2, n2)`, over unbounded integers (R79). -/
def overlap (a1 n1 a2 n2 : Nat) : Bool :=
  decide (0 < n1) && decide (0 < n2) && decide (a1 < a2 + n2) && decide (a2 < a1 + n1)

/-- The input byte sequence, `MemRead(R.SRC, R.LEN)` (R107). -/
def State.source (s : State) : List Byte := s.memRead s.src.toNat s.len.toNat

/-- The check of a command that reads a source (R79). -/
def State.sourceOk (s : State) : Bool := inBounds s.src.toNat s.len.toNat

/-- The checks of a command that also writes an output of at most `maxOut` bytes (R79). -/
def State.rangesOk (s : State) (maxOut : Nat) : Bool :=
  s.sourceOk && inBounds s.dst.toNat maxOut && !overlap s.src.toNat s.len.toNat s.dst.toNat maxOut

/-- The legal values of `BLKSZ` (R29, R132). -/
def State.blockSizeOk (s : State) : Bool := decide (1 ≤ s.blksz.toNat) && decide (s.blksz.toNat ≤ 255)

end Sys2Proof.Machine
end

