-- ==== Sys2Proof/Machine/Pkcs7.lean ====
section
/-! DEFINITION. The PKCS7 unit (40_padding.md): the functions of R130 and R131, and the instructions `PKCS7.PAD`
(R132) and `PKCS7.UNPAD` (R133). -/

namespace Sys2Proof.Machine

/-- The number `N` of padding bytes for a sequence of length `len` (R130). -/
def padCount (len B : Nat) : Nat := B - len % B

/-- `pkcs7_pad(s, B)` (R130). -/
def pkcs7Pad (s : List Byte) (B : Nat) : List Byte :=
  s ++ List.replicate (padCount s.length B) (BitVec.ofNat 8 (padCount s.length B))

/-- `pkcs7_unpad(s, B)` (R131); none where it raises `InvalidPadding`. -/
def pkcs7Unpad (s : List Byte) (B : Nat) : Option (List Byte) :=
  match s.getLast? with
  | none => none
  | some v =>
    if v.toNat = 0 ∨ B < v.toNat ∨ s.length < v.toNat then none
    else if (s.drop (s.length - v.toNat)).all (fun b => b == v) then some (s.take (s.length - v.toNat))
    else none

/-- The effect of delivering the result of an unpadding, or its exception (R133, R155). -/
def deliverUnpadded (s : State) (out : Option (List Byte)) : Except Exc State :=
  match out with
  | none => .error .invalidPadding
  | some o => .ok (s.deliver o)

/-- `MAXOUT` of `PKCS7.PAD` (R132). -/
def maxOutPkcs7Pad (s : State) : Nat := s.len.toNat + padCount s.len.toNat s.blksz.toNat

/-- The checks of `PKCS7.PAD`, in order (R132). -/
def checkPkcs7Pad (s : State) : Option Exc :=
  if !s.blockSizeOk then some .badBlockSize
  else if !s.rangesOk (maxOutPkcs7Pad s) then some .badRange
  else none

/-- `PKCS7.PAD` (R132). -/
def execPkcs7Pad (s : State) : Host.Outcome State Fault Refusal :=
  complete s (checkPkcs7Pad s) (.ok (s.deliver (pkcs7Pad s.source s.blksz.toNat)))

/-- `MAXOUT` of `PKCS7.UNPAD` (R133). -/
def maxOutPkcs7Unpad (s : State) : Nat := s.len.toNat

/-- The checks of `PKCS7.UNPAD` but the padding's own, in order (R133). -/
def checkPkcs7Unpad (s : State) : Option Exc :=
  if !s.blockSizeOk then some .badBlockSize
  else if s.len.toNat = 0 then some .badLength
  else if !s.rangesOk (maxOutPkcs7Unpad s) then some .badRange
  else none

/-- `PKCS7.UNPAD` (R133). -/
def execPkcs7Unpad (s : State) : Host.Outcome State Fault Refusal :=
  complete s (checkPkcs7Unpad s) (deliverUnpadded s (pkcs7Unpad s.source s.blksz.toNat))

end Sys2Proof.Machine
end

