-- ==== Sys2Proof/Machine/Cbc.lean ====
section
/-! DEFINITION. The MODE unit in CBC mode (41_cbc.md): the functions of R152 and R153 over any primitive, and the
instructions `CBC.ENC` (R154) and `CBC.DEC` (R155) with the primitive of Config. -/

namespace Sys2Proof.Machine

/-- The CBC chain of encryption (R152): `C[i] = E(xor(B[i], C[i-1]), K)`, `c` the block before the first. -/
def cbcChain (E : Block → Block → Block) (K : Block) : Block → List Block → List Block
  | _, [] => []
  | c, b :: bs => E (b ^^^ c) K :: cbcChain E K (E (b ^^^ c) K) bs

/-- The CBC chain of decryption (R153): `Q[i] = xor(D(C[i], K), C[i-1])`, `c` the block before the first. -/
def cbcUnchain (D : Block → Block → Block) (K : Block) : Block → List Block → List Block
  | _, [] => []
  | c, x :: xs => (D x K ^^^ c) :: cbcUnchain D K x xs

/-- `cbc_encrypt(P, K, IV0)` (R152). -/
def cbcEncrypt (E : Block → Block → Block) (P : List Byte) (K IV0 : Block) : List Byte :=
  bytesOfBlocks (cbcChain E K IV0 (blocks16 (pkcs7Pad P 16)))

/-- The decrypted sequence `PP` of R153, before its padding is stripped. -/
def cbcDecryptRaw (D : Block → Block → Block) (Cs : List Byte) (K IV0 : Block) : List Byte :=
  bytesOfBlocks (cbcUnchain D K IV0 (blocks16 Cs))

/-- `cbc_decrypt(Cs, K, IV0)` (R153); none where it raises `InvalidPadding`. -/
def cbcDecrypt (D : Block → Block → Block) (Cs : List Byte) (K IV0 : Block) : Option (List Byte) :=
  pkcs7Unpad (cbcDecryptRaw D Cs K IV0) 16

/-- `MAXOUT` of `CBC.ENC` (R154). -/
def maxOutCbcEnc (s : State) : Nat := s.len.toNat + padCount s.len.toNat 16

/-- The checks of `CBC.ENC` (R154). -/
def checkCbcEnc (s : State) : Option Exc :=
  if !s.rangesOk (maxOutCbcEnc s) then some .badRange else none

/-- `CBC.ENC` over a primitive (R154). -/
def cbcEncWith (E : Block → Block → Block) (s : State) : Host.Outcome State Fault Refusal :=
  complete s (checkCbcEnc s) (.ok (s.deliver (cbcEncrypt E s.source s.key.toBlock s.iv.toBlock)))

/-- `CBC.ENC` (R154). -/
def execCbcEnc (s : State) : Host.Outcome State Fault Refusal := cbcEncWith Config.encrypt s

/-- `MAXOUT` of `CBC.DEC` (R155). -/
def maxOutCbcDec (s : State) : Nat := s.len.toNat

/-- The checks of `CBC.DEC` but the padding's own, in order (R155). -/
def checkCbcDec (s : State) : Option Exc :=
  if s.len.toNat < 16 ∨ s.len.toNat % 16 ≠ 0 then some .badLength
  else if !s.rangesOk (maxOutCbcDec s) then some .badRange
  else none

/-- `CBC.DEC` over a primitive (R155). -/
def cbcDecWith (D : Block → Block → Block) (s : State) : Host.Outcome State Fault Refusal :=
  complete s (checkCbcDec s) (deliverUnpadded s (cbcDecrypt D s.source s.key.toBlock s.iv.toBlock))

/-- `CBC.DEC` (R155). -/
def execCbcDec (s : State) : Host.Outcome State Fault Refusal := cbcDecWith Config.decrypt s

end Sys2Proof.Machine
end

