-- ==== Sys2Proof/Machine/Ctr.lean ====
section
/-! DEFINITION. The MODE unit in CTR mode (42_ctr.md): the functions of R170, R171 and R176 over any primitive, and
the instructions `KS.INIT` (R172), `KS.NEXT` (R173), `CTR.ENC` (R174) and `CTR.DEC` (R175). -/

namespace Sys2Proof.Machine

/-- `ctr_block(n, j) = le64(n) ‖ le64(j)` (R170), as the block on the port. PRESUMED by the spec itself (log entry 12). -/
def ctrBlock (n j : Nat) : Block := blockOfBytes (le64 n ++ le64 j)

/-- `KSblock(K, n, j)` (R171). -/
def ksBlock (E : Block → Block → Block) (K : Block) (n j : Nat) : Block :=
  E (ctrBlock n (j % 2 ^ 64)) K

/-- `keystream(K, n, m)` (R171): the first `m` bytes of the keystream. -/
def keystream (E : Block → Block → Block) (K : Block) (n m : Nat) : List Byte :=
  (bytesOfBlocks ((List.range ((m + 15) / 16)).map (ksBlock E K n))).take m

/-- `ctr_xor(s, K, n)` (R176). -/
def ctrXor (E : Block → Block → Block) (s : List Byte) (K : Block) (n : Nat) : List Byte :=
  xorBytes s (keystream E K n s.length)

/-- `KS.INIT` (R172). -/
def execKsInit (s : State) : Host.Outcome State Fault Refusal :=
  complete s none (.ok (s.setKeystream s.ksb (pairOfNat 0)).deliverNothing)

/-- `KS.NEXT` over a primitive (R173). -/
def ksNextWith (E : Block → Block → Block) (s : State) : Host.Outcome State Fault Refusal :=
  complete s none
    (.ok (s.setKeystream (quadOfBlock (E (ctrBlock s.nonce.toNat s.cnt.toNat) s.key.toBlock))
      (pairOfNat (s.cnt.toNat + 1))).deliverNothing)

/-- `KS.NEXT` (R173). -/
def execKsNext (s : State) : Host.Outcome State Fault Refusal := ksNextWith Config.encrypt s

/-- `MAXOUT` of `CTR.ENC` and `CTR.DEC` (R174, R175). -/
def maxOutCtr (s : State) : Nat := s.len.toNat

/-- The checks of `CTR.ENC` and `CTR.DEC` (R174, R175). -/
def checkCtr (s : State) : Option Exc :=
  if !s.rangesOk (maxOutCtr s) then some .badRange else none

/-- `CTR.ENC` over a primitive, and `CTR.DEC` word for word (R174, R175). -/
def ctrWith (E : Block → Block → Block) (s : State) : Host.Outcome State Fault Refusal :=
  complete s (checkCtr s) (.ok (s.deliver (ctrXor E s.source s.key.toBlock s.nonce.toNat)))

/-- `CTR.ENC` (R174). -/
def execCtrEnc (s : State) : Host.Outcome State Fault Refusal := ctrWith Config.encrypt s

/-- `CTR.DEC` (R175): the same operation, the primitive in the `enc` direction. -/
def execCtrDec (s : State) : Host.Outcome State Fault Refusal := ctrWith Config.encrypt s

end Sys2Proof.Machine
end

