-- ==== Sys2Proof/Machine/Sha1.lean ====
section
/-! DEFINITION. The SHA1 unit (43_sha1.md): the functions of R190 to R193 and R199, and the instructions `SHA1.PAD`
(R194), `SHA1.PADF` (R195), `SHA1.UPD` (R196), `SHA1.CMP` (R197) and `SHA1.CMPI` (R198). The algorithm is what the spec writes out
from general knowledge (log entry 16). -/

namespace Sys2Proof.Machine

/-- The default state `SHA1_IV` (R190). -/
def sha1Iv : HashState :=
  ⟨0x67452301#32, 0xEFCDAB89#32, 0x98BADCFE#32, 0x10325476#32, 0xC3D2E1F0#32⟩

/-- `digest(h)` (R199). -/
def digest (h : HashState) : List Byte :=
  be32 h.h0 ++ be32 h.h1 ++ be32 h.h2 ++ be32 h.h3 ++ be32 h.h4

/-- The number `k = (55 - len) mod 64` of zero bytes (R191), written over the naturals. -/
def sha1Fill (len : Nat) : Nat := (119 - len % 64) % 64

/-- `sha1_pad(m, L)` (R191). -/
def sha1PadBytes (m : List Byte) (L : Nat) : List Byte :=
  m ++ [0x80#8] ++ List.replicate (sha1Fill m.length) 0x00#8 ++ be64 ((8 * L) % 2 ^ 64)

/-- The next word of the message schedule from the words so far, the newest first (R192). -/
def scheduleNext (ws : List Word) : Word :=
  rotl (ws.getD 2 0#32 ^^^ ws.getD 7 0#32 ^^^ ws.getD 13 0#32 ^^^ ws.getD 15 0#32) 1

/-- The message schedule extended by `k` words, the newest first (R192). -/
def scheduleExtend : Nat → List Word → List Word
  | 0, ws => ws
  | k + 1, ws => scheduleExtend k (scheduleNext ws :: ws)

/-- The message schedule `W[0 .. 80)` of a chunk (R192). -/
def schedule (c : List Byte) : List Word :=
  (scheduleExtend 64 ((pieces 4 16 c).map wordBe).reverse).reverse

/-- The round function `f` of round `t` (R192). -/
def roundF (t : Nat) (b c d : Word) : Word :=
  if t ≤ 19 then (b &&& c) ||| (~~~b &&& d)
  else if t ≤ 39 then b ^^^ c ^^^ d
  else if t ≤ 59 then (b &&& c) ||| (b &&& d) ||| (c &&& d)
  else b ^^^ c ^^^ d

/-- The round constant `K` of round `t` (R192). -/
def roundK (t : Nat) : Word :=
  if t ≤ 19 then 0x5A827999#32
  else if t ≤ 39 then 0x6ED9EBA1#32
  else if t ≤ 59 then 0x8F1BBCDC#32
  else 0xCA62C1D6#32

/-- Round `t` on the working variables `(a, b, c_, d, e)`, held as `h0..h4` (R192). -/
def sha1Round (t : Nat) (w : Word) (v : HashState) : HashState :=
  ⟨rotl v.h0 5 + roundF t v.h1 v.h2 v.h3 + v.h4 + roundK t + w, v.h0, rotl v.h1 30, v.h2, v.h3⟩

/-- The rounds from `t` on, one for each word of the schedule (R192). -/
def sha1Rounds : Nat → List Word → HashState → HashState
  | _, [], v => v
  | t, w :: ws, v => sha1Rounds (t + 1) ws (sha1Round t w v)

/-- Word-wise addition modulo `2^32` (R192). -/
def hashAdd (h v : HashState) : HashState :=
  ⟨h.h0 + v.h0, h.h1 + v.h1, h.h2 + v.h2, h.h3 + v.h3, h.h4 + v.h4⟩

/-- `sha1_chunk(h, c)` (R192). -/
def sha1Chunk (h : HashState) (c : List Byte) : HashState :=
  hashAdd h (sha1Rounds 0 (schedule c) h)

/-- `sha1_fold(h, x)` (R193). -/
def sha1Fold (h : HashState) (x : List Byte) : HashState :=
  (chunks64 x).foldl sha1Chunk h

/-- `sha1_compress(m, h, p)` (R193). -/
def sha1Compress (m : List Byte) (h : HashState) (p : Nat) : HashState :=
  sha1Fold h (sha1PadBytes m ((p + m.length) % 2 ^ 64))

/-- `MAXOUT` of `SHA1.PAD` and `SHA1.PADF` (R194, R195). -/
def maxOutSha1Pad (s : State) : Nat := s.len.toNat + 1 + sha1Fill s.len.toNat + 8

/-- The checks of `SHA1.PAD` and `SHA1.PADF` (R194, R195). -/
def checkSha1Pad (s : State) : Option Exc :=
  if !s.rangesOk (maxOutSha1Pad s) then some .badRange else none

/-- `SHA1.PAD` (R194). -/
def execSha1Pad (s : State) : Host.Outcome State Fault Refusal :=
  complete s (checkSha1Pad s) (.ok (s.deliver (sha1PadBytes s.source s.len.toNat)))

/-- `SHA1.PADF` (R195). -/
def execSha1Padf (s : State) : Host.Outcome State Fault Refusal :=
  complete s (checkSha1Pad s) (.ok (s.deliver (sha1PadBytes s.source s.flen.toNat)))

/-- The checks of `SHA1.UPD`, in order (R196). -/
def checkSha1Upd (s : State) : Option Exc :=
  if s.len.toNat % 64 ≠ 0 then some .badLength
  else if !s.sourceOk then some .badRange
  else none

/-- `SHA1.UPD` (R196). -/
def execSha1Upd (s : State) : Host.Outcome State Fault Refusal :=
  complete s (checkSha1Upd s)
    (.ok (s.setHash (sha1Fold s.hash s.source) (s.prior.toNat + s.len.toNat)).deliverNothing)

/-- `MAXOUT` of `SHA1.CMP` and `SHA1.CMPI`: the digest (R197, R198). -/
def maxOutSha1Cmp : Nat := 20

/-- The checks of `SHA1.CMP` and `SHA1.CMPI` (R197, R198). -/
def checkSha1Cmp (s : State) : Option Exc :=
  if !s.rangesOk maxOutSha1Cmp then some .badRange else none

/-- The effect of hashing the padded source `pm` from state `h` with `p0` bytes absorbed before: `SHA_H`, `PRIOR` and
the digest at `DST` (R197, R198). -/
def absorbPadded (s : State) (h : HashState) (p0 : Nat) (pm : List Byte) : State :=
  (s.setHash (sha1Fold h pm) (p0 + pm.length)).deliver (digest (sha1Fold h pm))

/-- `SHA1.CMP` (R197). -/
def execSha1Cmp (s : State) : Host.Outcome State Fault Refusal :=
  complete s (checkSha1Cmp s) (.ok (absorbPadded s sha1Iv 0 (sha1PadBytes s.source s.len.toNat)))

/-- `SHA1.CMPI` (R198). -/
def execSha1Cmpi (s : State) : Host.Outcome State Fault Refusal :=
  complete s (checkSha1Cmp s)
    (.ok (absorbPadded s s.hash s.prior.toNat
      (sha1PadBytes s.source ((s.prior.toNat + s.len.toNat) % 2 ^ 64))))

end Sys2Proof.Machine
end

