-- ==== Sys2Proof/Machine/Dispatch.lean ====
section
/-! DEFINITION. The instruction semantics: one arm per constructor of Instr, each the completion of that instruction
(60_exceptions.md R235, R236; log entry 11). -/

namespace Sys2Proof.Machine

def exec (i : Instr) (s : State) : Host.Outcome State Fault Refusal :=
  match i with
  | .pkcs7Pad => Sys2Proof.Machine.execPkcs7Pad s
  | .pkcs7Unpad => Sys2Proof.Machine.execPkcs7Unpad s
  | .cbcEnc => Sys2Proof.Machine.execCbcEnc s
  | .cbcDec => Sys2Proof.Machine.execCbcDec s
  | .ctrEnc => Sys2Proof.Machine.execCtrEnc s
  | .ctrDec => Sys2Proof.Machine.execCtrDec s
  | .ksInit => Sys2Proof.Machine.execKsInit s
  | .ksNext => Sys2Proof.Machine.execKsNext s
  | .sha1Pad => Sys2Proof.Machine.execSha1Pad s
  | .sha1Padf => Sys2Proof.Machine.execSha1Padf s
  | .sha1Upd => Sys2Proof.Machine.execSha1Upd s
  | .sha1Cmp => Sys2Proof.Machine.execSha1Cmp s
  | .sha1Cmpi => Sys2Proof.Machine.execSha1Cmpi s

end Sys2Proof.Machine
end

