-- ==== Sys2Proof/Decode.lean ====
section
/-! DEFINITION. The decoder of command words (30_encoding.md R101 to R106) and, after it, the encoder; the
decoder of register-space offsets (10_state.md R20, 20_memory.md R71) and, after it, the offset of a register. -/

namespace Sys2Proof

/-- Field `OP`, bits 7:0 (R101). -/
def opField (w : Word) : BitVec 8 := w.extractLsb' 0 8

/-- Field `MODE`, bits 11:8 (R101). -/
def modeField (w : Word) : BitVec 4 := w.extractLsb' 8 4

/-- Field `FL`, bit 12 (R101). -/
def flField (w : Word) : Bool := w.getLsbD 12

/-- Field `INJ`, bit 13 (R101). -/
def injField (w : Word) : Bool := w.getLsbD 13

/-- Field `RSV`, bits 31:14 (R101). -/
def rsvField (w : Word) : BitVec 18 := w.extractLsb' 14 18

/-- The assigned operation codes (R102). -/
def assignedOps : List (BitVec 8) :=
  [0x01#8, 0x02#8, 0x10#8, 0x11#8, 0x18#8, 0x19#8, 0x20#8, 0x21#8, 0x22#8]

/-- The two operation codes of the mode-construction layer, `ENC` and `DEC` (R102, R150). -/
def isModeOp (op : BitVec 8) : Bool := op == 0x10#8 || op == 0x11#8

/-- The recognised mode selectors: 1 is CBC, 2 is CTR (R103). -/
def isMode (m : BitVec 4) : Bool := m == 1#4 || m == 2#4

/-- The instruction of R104 that the operation code and the fields `MODE`, `FL`, `INJ` select, once lines
1 to 6 of R105 have passed. -/
def selectInstr (op : BitVec 8) (mode : BitVec 4) (fl inj : Bool) : Option Instr :=
  if op = 0x01#8 then some .pkcs7Pad
  else if op = 0x02#8 then some .pkcs7Unpad
  else if op = 0x10#8 then some (if mode = 1#4 then .cbcEnc else .ctrEnc)
  else if op = 0x11#8 then some (if mode = 1#4 then .cbcDec else .ctrDec)
  else if op = 0x18#8 then some .ksInit
  else if op = 0x19#8 then some .ksNext
  else if op = 0x20#8 then some (if fl then .sha1Padf else .sha1Pad)
  else if op = 0x21#8 then some .sha1Upd
  else if op = 0x22#8 then some (if inj then .sha1Cmpi else .sha1Cmp)
  else none

/-- Decode (R105): the first line that applies decides; a word that selects no instruction is rejected with
the exception it raises. -/
def decode (w : Word) : Except Exc Instr :=
  if rsvField w ≠ 0#18 then .error .illegalCommand
  else if !assignedOps.contains (opField w) then .error .illegalCommand
  else if !isModeOp (opField w) && modeField w != 0#4 then .error .illegalCommand
  else if flField w && opField w != 0x20#8 then .error .illegalCommand
  else if injField w && opField w != 0x22#8 then .error .illegalCommand
  else if isModeOp (opField w) && !isMode (modeField w) then .error .illegalMode
  else match selectInstr (opField w) (modeField w) (flField w) (injField w) with
    | some i => .ok i
    | none => .error .illegalCommand

/-- The decoder on a row of the opcode table: the instruction has one 32-bit word (R100), whose bit `n` is
bit `n` of `w`. -/
def decodeTableWord (nbits w : Nat) : Option Instr :=
  if w % 2 ^ nbits < 2 ^ 32 then
    match decode (BitVec.ofNat 32 (w % 2 ^ nbits)) with
    | .ok i => some i
    | .error _ => none
  else none

/-- Format `C` (R101): the word with the given fields and `RSV = 0`. -/
def formatC (op : BitVec 8) (mode : BitVec 4) (fl inj : Bool) : Word :=
  0#18 ++ BitVec.ofBool inj ++ BitVec.ofBool fl ++ mode ++ op

/-- Encode: the command word of an instruction, from its `OP`, `MODE`, `FL` and `INJ` of R104. -/
def encode : Instr → Word
  | .pkcs7Pad => formatC 0x01#8 0#4 false false
  | .pkcs7Unpad => formatC 0x02#8 0#4 false false
  | .cbcEnc => formatC 0x10#8 1#4 false false
  | .cbcDec => formatC 0x11#8 1#4 false false
  | .ctrEnc => formatC 0x10#8 2#4 false false
  | .ctrDec => formatC 0x11#8 2#4 false false
  | .ksInit => formatC 0x18#8 0#4 false false
  | .ksNext => formatC 0x19#8 0#4 false false
  | .sha1Pad => formatC 0x20#8 0#4 false false
  | .sha1Padf => formatC 0x20#8 0#4 true false
  | .sha1Upd => formatC 0x21#8 0#4 false false
  | .sha1Cmp => formatC 0x22#8 0#4 false false
  | .sha1Cmpi => formatC 0x22#8 0#4 false true

/-- The offset of a register (R20). -/
def Reg.offset : Reg → Nat
  | .id => 0x000
  | .cap => 0x004
  | .ctrl => 0x008
  | .ien => 0x00C
  | .status => 0x010
  | .cmd => 0x014
  | .src => 0x018
  | .len => 0x01C
  | .dst => 0x020
  | .outlen => 0x024
  | .blksz => 0x028
  | .key j => 0x030 + 4 * j.val
  | .iv j => 0x040 + 4 * j.val
  | .nonceLo => 0x050
  | .nonceHi => 0x054
  | .cntLo => 0x058
  | .cntHi => 0x05C
  | .ksb j => 0x060 + 4 * j.val
  | .shaH j => 0x070 + 4 * j.val
  | .priorLo => 0x088
  | .priorHi => 0x08C
  | .flenLo => 0x090
  | .flenHi => 0x094

/-- Every register of R20, in the order of the table. -/
def Reg.all : List Reg :=
  [.id, .cap, .ctrl, .ien, .status, .cmd, .src, .len, .dst, .outlen, .blksz] ++
  [.key 0, .key 1, .key 2, .key 3, .iv 0, .iv 1, .iv 2, .iv 3] ++
  [.nonceLo, .nonceHi, .cntLo, .cntHi, .ksb 0, .ksb 1, .ksb 2, .ksb 3] ++
  [.shaH 0, .shaH 1, .shaH 2, .shaH 3, .shaH 4, .priorLo, .priorHi, .flenLo, .flenHi]

/-- The offset of the `BUF` window (R71). -/
def windowBase : Nat := 0x1000

/-- What a byte offset of the register space names (R71): none where it is not word-aligned or is unmapped
(R74). -/
def Target.ofOffset (off : Nat) : Option Target :=
  if off % 4 ≠ 0 then none
  else if windowBase ≤ off then
    if off < windowBase + Config.bufSize then some (.window (off - windowBase)) else none
  else (Reg.all.find? (fun r => r.offset == off)).map Target.reg

/-- The offset at which a target stands (R71). -/
def Target.offset : Target → Nat
  | .reg r => r.offset
  | .window a => windowBase + a

end Sys2Proof
end

