-- ==== Sys2Proof/Machine/Reset.lean ====
section
/-! DEFINITION. Reset (70_reset_and_hazards.md R270 to R272): the range that an abandoned command leaves unspecified,
the soft reset, and the two edges of the reset input. -/

namespace Sys2Proof.Machine

/-- The first of an instruction's checks that fails, all but the `InvalidPadding` check (R231, R232). -/
def operandCheck : Instr → State → Option Exc
  | .pkcs7Pad, s => checkPkcs7Pad s
  | .pkcs7Unpad, s => checkPkcs7Unpad s
  | .cbcEnc, s => checkCbcEnc s
  | .cbcDec, s => checkCbcDec s
  | .ctrEnc, s => checkCtr s
  | .ctrDec, s => checkCtr s
  | .ksInit, _ => none
  | .ksNext, _ => none
  | .sha1Pad, s => checkSha1Pad s
  | .sha1Padf, s => checkSha1Pad s
  | .sha1Upd, s => checkSha1Upd s
  | .sha1Cmp, s => checkSha1Cmp s
  | .sha1Cmpi, s => checkSha1Cmp s

/-- `MAXOUT` of an instruction; 0 for one that has no destination (R272). -/
def maxOut : Instr → State → Nat
  | .pkcs7Pad, s => maxOutPkcs7Pad s
  | .pkcs7Unpad, s => maxOutPkcs7Unpad s
  | .cbcEnc, s => maxOutCbcEnc s
  | .cbcDec, s => maxOutCbcDec s
  | .ctrEnc, s => maxOutCtr s
  | .ctrDec, s => maxOutCtr s
  | .ksInit, _ => 0
  | .ksNext, _ => 0
  | .sha1Pad, s => maxOutSha1Pad s
  | .sha1Padf, s => maxOutSha1Pad s
  | .sha1Upd, _ => 0
  | .sha1Cmp, _ => maxOutSha1Cmp
  | .sha1Cmpi, _ => maxOutSha1Cmp

/-- The length of the destination range that the pending command leaves unspecified when a soft reset abandons it
(R272): `MAXOUT`, and 0 when the word decodes to no instruction or a check would have raised. -/
def abandonedLength (s : State) : Nat :=
  match decode s.cmd with
  | .error _ => 0
  | .ok i =>
    match operandCheck i s with
    | some _ => 0
    | none => maxOut i s

/-- Soft reset (R271, R272): the registers take their reset values and `BUF` is kept, but for the destination range
of a command abandoned while `BUSY = 1`. -/
def softReset (s : State) : State :=
  if s.status.busy then (s.forgetRange s.dst.toNat (abandonedLength s)).resetRegisters
  else s.resetRegisters

/-- The reset input is asserted (R270): the registers take their reset values, a pending command is abandoned (R272),
and every byte of `BUF` becomes unspecified: a fresh draw. -/
def hardwareReset (s : State) : State :=
  { s.resetRegisters with
    buf := []
    bufDraw := s.draws
    draws := s.draws + 1
    rstAsserted := true }

/-- The reset input is released (R270): the registers hold their reset values. -/
def releaseReset (s : State) : State :=
  { s.resetRegisters with rstAsserted := false }

end Sys2Proof.Machine
end

