-- ==== Sys2Proof/Machine/Bus.lean ====
section
/-! DEFINITION. Host transactions (20_memory.md R72 to R76): reads and writes of the registers by their access classes
(10_state.md R41), of the `BUF` window, the write filter while busy (60_exceptions.md R244) and the unspecified reads while
busy (70_reset_and_hazards.md R275). -/

namespace Sys2Proof.Machine

/-- The value a register reads as while the block is idle (R21 to R38). -/
def State.readReg (s : State) : Reg → Word
  | .id => Config.idWord
  | .cap => BitVec.ofNat 32 Config.bufSize
  | .ctrl => 0#32
  | .ien => s.ien.toWord
  | .status => s.status.toWord
  | .cmd => s.cmd
  | .src => s.src
  | .len => s.len
  | .dst => s.dst
  | .outlen => s.outlen
  | .blksz => s.blksz
  | .key j => s.key.get j
  | .iv j => s.iv.get j
  | .nonceLo => s.nonce.lo
  | .nonceHi => s.nonce.hi
  | .cntLo => s.cnt.lo
  | .cntHi => s.cnt.hi
  | .ksb j => s.ksb.get j
  | .shaH j => s.hash.get j
  | .priorLo => s.prior.lo
  | .priorHi => s.prior.hi
  | .flenLo => s.flen.lo
  | .flenHi => s.flen.hi

/-- The value a target reads as while the block is idle (R72, R76). -/
def State.readTarget (s : State) : Target → Word
  | .reg r => s.readReg r
  | .window a => wordLe (s.memRead a 4)

/-- The targets whose reads are unspecified while `BUSY = 1` (R72, R275): the result registers and the window. -/
def unspecifiedWhileBusy : Target → Bool
  | .window _ | .reg .outlen | .reg .cntLo | .reg .cntHi | .reg (.ksb _) => true
  | .reg (.shaH _) | .reg .priorLo | .reg .priorHi => true
  | .reg .id | .reg .cap | .reg .ctrl | .reg .ien | .reg .status | .reg .cmd => false
  | .reg .src | .reg .len | .reg .dst | .reg .blksz | .reg (.key _) | .reg (.iv _) => false
  | .reg .nonceLo | .reg .nonceHi | .reg .flenLo | .reg .flenHi => false

/-- The read-only registers: a host write to them is ignored and sets no flag (R41, R244). -/
def readOnly : Target → Bool
  | .reg .id | .reg .cap | .reg .outlen | .reg .cntLo | .reg .cntHi | .reg (.ksb _) => true
  | .window _ | .reg .ctrl | .reg .ien | .reg .status | .reg .cmd => false
  | .reg .src | .reg .len | .reg .dst | .reg .blksz | .reg (.key _) | .reg (.iv _) => false
  | .reg .nonceLo | .reg .nonceHi | .reg (.shaH _) | .reg .priorLo | .reg .priorHi => false
  | .reg .flenLo | .reg .flenHi => false

/-- The targets whose writes act also while `BUSY = 1` (R244): `CTRL`, `IEN`, `STATUS`. -/
def writableWhileBusy : Target → Bool
  | .reg .ctrl | .reg .ien | .reg .status => true
  | .window _ | .reg .id | .reg .cap | .reg .cmd | .reg .src | .reg .len | .reg .dst => false
  | .reg .outlen | .reg .blksz | .reg (.key _) | .reg (.iv _) | .reg .nonceLo | .reg .nonceHi => false
  | .reg .cntLo | .reg .cntHi | .reg (.ksb _) | .reg (.shaH _) | .reg .priorLo | .reg .priorHi => false
  | .reg .flenLo | .reg .flenHi => false

/-- The effect a host write has on its target when it is performed (R21 to R38, R41, R76). -/
def State.storeTarget (s : State) (v : Word) : Target → State
  | .window a => s.memWrite a (bytesOfWord v)
  | .reg .id => s
  | .reg .cap => s
  | .reg .ctrl => if v.getLsbD 0 then softReset s else s
  | .reg .ien => { s with ien := ienOfWord v }
  | .reg .status => s.writeStatus v
  | .reg .cmd => s.accept v
  | .reg .src => { s with src := v }
  | .reg .len => { s with len := v }
  | .reg .dst => { s with dst := v }
  | .reg .outlen => s
  | .reg .blksz => { s with blksz := v }
  | .reg (.key j) => { s with key := s.key.set j v }
  | .reg (.iv j) => { s with iv := s.iv.set j v }
  | .reg .nonceLo => { s with nonce := { s.nonce with lo := v } }
  | .reg .nonceHi => { s with nonce := { s.nonce with hi := v } }
  | .reg .cntLo => s
  | .reg .cntHi => s
  | .reg (.ksb _) => s
  | .reg (.shaH j) => { s with hash := s.hash.set j v }
  | .reg .priorLo => { s with prior := { s.prior with lo := v } }
  | .reg .priorHi => { s with prior := { s.prior with hi := v } }
  | .reg .flenLo => { s with flen := { s.flen with lo := v } }
  | .reg .flenHi => { s with flen := { s.flen with hi := v } }

/-- A well-formed host write after the filter of R244: a read-only target ignores it; while `BUSY = 1` a target
other than `CTRL`, `IEN`, `STATUS` discards it and `WRBUSY` is set. -/
def State.writeTarget (s : State) (v : Word) (t : Target) : State :=
  if readOnly t then s
  else if s.status.busy && !writableWhileBusy t then { s with status := s.status.writeDiscarded }
  else s.storeTarget v t

/-- Record the bus response of a transaction (R72 to R74); State keeps the last one (log entry 14). -/
def State.respond (s : State) (r : Option BusResponse) : State := { s with response := r }

/-- A well-formed host read (R72): the target's value, or while `BUSY = 1` a fresh free word for the targets of R275.
No read changes the block. -/
def State.hostReadTarget (s : State) (t : Target) : State :=
  if s.status.busy && unspecifiedWhileBusy t then
    { s with draws := s.draws + 1, response := some (.okRead (Config.freeWord s.draws)) }
  else s.respond (some (.okRead (s.readTarget t)))

/-- What a transaction's offset and width address: none where the access is not 32 bits wide, not word-aligned or
not mapped (R74). -/
def accessTarget (off width : Nat) : Option Target :=
  if width = 32 then Target.ofOffset off else none

/-- `HostRead(off)` (R72, R74). -/
def State.hostRead (s : State) (off width : Nat) : State :=
  match accessTarget off width with
  | none => s.respond (some .busError)
  | some t => s.hostReadTarget t

/-- `HostWrite(off, v)` (R73, R74). -/
def State.hostWrite (s : State) (off width : Nat) (v : Word) : State :=
  match accessTarget off width with
  | none => s.respond (some .busError)
  | some t => (s.writeTarget v t).respond (some .okWrite)

/-- A host transaction; while the reset input is asserted it is not answered (R270; log entry 7). -/
def State.transact (s : State) (t : Transaction) : State :=
  if s.rstAsserted then s.respond none
  else match t with
    | .read off width => s.hostRead off width
    | .write off width v => s.hostWrite off width v

end Sys2Proof.Machine
end

