-- ==== Sys2Proof/Machine/Engine.lean ====
section
/-! DEFINITION. What moves the block: the engine's turn (60_exceptions.md R235, R236) and the events from outside, in
their one order (20_memory.md R80, R81). The instruction semantics `run` is an argument; Machine/Step.lean gives it `exec`. -/

namespace Sys2Proof.Machine

/-- The engine's turn (R8, R235, R236): while `BUSY = 1` it completes the pending command: the word in `CMD` is
decoded, and the instruction runs or the decode exception is taken. When no command is pending it does nothing. -/
def engineTurn (run : Instr → State → Host.Outcome State Fault Refusal) (s : State) :
    Host.Outcome State Fault Refusal :=
  if s.status.busy then
    match decode s.cmd with
    | .ok i => run i s
    | .error x => .next (s.takeException x)
  else .next s

/-- What comes after a read of a `WAIT` that found the block busy (R109): another read, and before it, once no
further read is to find the block busy, the engine's turn (R281; log entry 10). -/
def waitAgain (n : Nat) (rest : List Event) : List Event :=
  match n with
  | 0 => .engine :: .wait 0 :: rest
  | k + 1 => .wait k :: rest

/-- The loop goes on where the value just read has bit 0 (`BUSY`) = 1 (R109); it ends where it has not, and where the
read was not answered (R270, log entry 7). -/
def State.keepWaiting (s : State) (n : Nat) : State :=
  match s.response with
  | some (.okRead v) => if v.getLsbD 0 then { s with agenda := waitAgain n s.agenda } else s
  | some .okWrite => s
  | some .busError => s
  | none => s

/-- One turn of `WAIT` (R109): `RD STATUS`, and again as long as the value read has `BUSY = 1`. -/
def State.waitRead (s : State) (n : Nat) : State :=
  (s.transact (.read Reg.status.offset 32)).keepWaiting n

/-- One event (R80, R81): a host transaction, the engine's turn, an edge of the reset input (R270), a read of `WAIT`
(R109). -/
def handleEvent (run : Instr → State → Host.Outcome State Fault Refusal) (e : Event) (s : State) :
    Host.Outcome State Fault Refusal :=
  match e with
  | .bus t => .next (s.transact t)
  | .engine => engineTurn run s
  | .rstAssert => .next (hardwareReset s)
  | .rstRelease => .next (releaseReset s)
  | .wait n => .next (s.waitRead n)

/-- One step: the first event of the agenda; with an empty agenda nothing comes from outside any more, and the
engine has its turn (R235: its one enabled step, R281: it comes; log entry 2). -/
def stepWith (run : Instr → State → Host.Outcome State Fault Refusal) (s : State) :
    Host.Outcome State Fault Refusal :=
  match s.agenda with
  | [] => engineTurn run s
  | e :: rest => handleEvent run e { s with agenda := rest }

/-- The agenda under which the very next step is the engine's turn: an empty one already is. -/
def engineNext (agenda : List Event) : List Event :=
  match agenda with
  | [] => []
  | e :: rest => .engine :: e :: rest

/-- The state with the command word `w` pending and the engine to move next: what the host's write of `w` to `CMD`
would leave (R234), the reset input not asserted. -/
def State.withCommand (s : State) (w : Word) : State :=
  { s.accept w with rstAsserted := false, agenda := engineNext s.agenda }

end Sys2Proof.Machine
end

