-- ==== Sys2Proof/Laws/Bytes.lean ====
section
/-! SUPPORT. The little-endian conversions between numbers and byte sequences undo each other. -/

namespace Sys2Proof.Laws

open Sys2Proof

@[simp] theorem leBytes_length : ∀ (k n : Nat), (leBytes k n).length = k := by
  intro k
  induction k with
  | zero => intro n; rfl
  | succ k ih => intro n; simp [leBytes, ih]

theorem leNat_leBytes : ∀ (k n : Nat), leNat (leBytes k n) = n % 256 ^ k := by
  intro k
  induction k with
  | zero => intro n; simp [leBytes, leNat, Nat.mod_one]
  | succ k ih =>
    intro n
    have h : (256 : Nat) ^ (k + 1) = 256 * 256 ^ k := Nat.pow_succ'
    rw [leBytes, leNat, ih, BitVec.toNat_ofNat, h, Nat.mod_mul]

theorem leNat_lt : ∀ (s : List Byte), leNat s < 256 ^ s.length := by
  intro s
  induction s with
  | nil => simp [leNat]
  | cons b s ih =>
    have := b.isLt
    simp only [leNat, List.length_cons, Nat.pow_succ']
    omega

theorem leBytes_leNat : ∀ (s : List Byte), leBytes s.length (leNat s) = s := by
  intro s
  induction s with
  | nil => rfl
  | cons b s ih =>
    have hb := b.isLt
    have h1 : (b.toNat + 256 * leNat s) / 256 = leNat s := by omega
    have h2 : BitVec.ofNat 8 (b.toNat + 256 * leNat s) = b := by
      apply BitVec.eq_of_toNat_eq
      simp only [BitVec.toNat_ofNat]
      omega
    simp [leNat, leBytes, h1, h2, ih]

@[simp] theorem bytesOfBlock_length (b : Block) : (bytesOfBlock b).length = 16 := leBytes_length _ _

@[simp] theorem blockOfBytes_bytesOfBlock (b : Block) : blockOfBytes (bytesOfBlock b) = b := by
  apply BitVec.eq_of_toNat_eq
  rw [blockOfBytes, bytesOfBlock, leNat_leBytes, BitVec.toNat_ofNat]
  have := b.isLt
  omega

theorem bytesOfBlock_blockOfBytes {s : List Byte} (h : s.length = 16) :
    bytesOfBlock (blockOfBytes s) = s := by
  have hlt := leNat_lt s
  rw [h] at hlt
  rw [bytesOfBlock, blockOfBytes, BitVec.toNat_ofNat, Nat.mod_eq_of_lt (by omega), ← h]
  exact leBytes_leNat s

@[simp] theorem bytesOfWord_length (w : Word) : (bytesOfWord w).length = 4 := leBytes_length _ _

@[simp] theorem pieces_length (n : Nat) : ∀ (k : Nat) (s : List Byte), (pieces n k s).length = k := by
  intro k
  induction k with
  | zero => intro s; rfl
  | succ k ih => intro s; simp [pieces, ih]

@[simp] theorem pairOfNat_toNat (n : Nat) : (pairOfNat n).toNat = n % 2 ^ 64 := by
  simp only [pairOfNat, Pair.toNat, BitVec.toNat_ofNat]
  omega

end Sys2Proof.Laws
end

