-- ==== Sys2Proof/Laws/State.lean ====
section
/-! SUPPORT. One lemma for each field of State and each update of it, true by unfolding, so that no proof unfolds a record
update; the same for the fields of STATUS. -/

namespace Sys2Proof.Laws

open Sys2Proof Sys2Proof.Machine

variable (s : State) (st : Status)

/-! ### State.accept -/

@[simp] theorem accept_ien (w : Word) : (s.accept w).ien = s.ien := rfl
@[simp] theorem accept_status (w : Word) : (s.accept w).status = s.status.accepted := rfl
@[simp] theorem accept_cmd (w : Word) : (s.accept w).cmd = w := rfl
@[simp] theorem accept_src (w : Word) : (s.accept w).src = s.src := rfl
@[simp] theorem accept_len (w : Word) : (s.accept w).len = s.len := rfl
@[simp] theorem accept_dst (w : Word) : (s.accept w).dst = s.dst := rfl
@[simp] theorem accept_outlen (w : Word) : (s.accept w).outlen = s.outlen := rfl
@[simp] theorem accept_blksz (w : Word) : (s.accept w).blksz = s.blksz := rfl
@[simp] theorem accept_key (w : Word) : (s.accept w).key = s.key := rfl
@[simp] theorem accept_iv (w : Word) : (s.accept w).iv = s.iv := rfl
@[simp] theorem accept_nonce (w : Word) : (s.accept w).nonce = s.nonce := rfl
@[simp] theorem accept_cnt (w : Word) : (s.accept w).cnt = s.cnt := rfl
@[simp] theorem accept_ksb (w : Word) : (s.accept w).ksb = s.ksb := rfl
@[simp] theorem accept_hash (w : Word) : (s.accept w).hash = s.hash := rfl
@[simp] theorem accept_prior (w : Word) : (s.accept w).prior = s.prior := rfl
@[simp] theorem accept_flen (w : Word) : (s.accept w).flen = s.flen := rfl
@[simp] theorem accept_buf (w : Word) : (s.accept w).buf = s.buf := rfl
@[simp] theorem accept_rstAsserted (w : Word) : (s.accept w).rstAsserted = s.rstAsserted := rfl
@[simp] theorem accept_bufDraw (w : Word) : (s.accept w).bufDraw = s.bufDraw := rfl
@[simp] theorem accept_draws (w : Word) : (s.accept w).draws = s.draws := rfl
@[simp] theorem accept_agenda (w : Word) : (s.accept w).agenda = s.agenda := rfl
@[simp] theorem accept_response (w : Word) : (s.accept w).response = s.response := rfl

/-! ### State.succeed -/

@[simp] theorem succeed_ien : s.succeed.ien = s.ien := rfl
@[simp] theorem succeed_status : s.succeed.status = s.status.succeeded := rfl
@[simp] theorem succeed_cmd : s.succeed.cmd = s.cmd := rfl
@[simp] theorem succeed_src : s.succeed.src = s.src := rfl
@[simp] theorem succeed_len : s.succeed.len = s.len := rfl
@[simp] theorem succeed_dst : s.succeed.dst = s.dst := rfl
@[simp] theorem succeed_outlen : s.succeed.outlen = s.outlen := rfl
@[simp] theorem succeed_blksz : s.succeed.blksz = s.blksz := rfl
@[simp] theorem succeed_key : s.succeed.key = s.key := rfl
@[simp] theorem succeed_iv : s.succeed.iv = s.iv := rfl
@[simp] theorem succeed_nonce : s.succeed.nonce = s.nonce := rfl
@[simp] theorem succeed_cnt : s.succeed.cnt = s.cnt := rfl
@[simp] theorem succeed_ksb : s.succeed.ksb = s.ksb := rfl
@[simp] theorem succeed_hash : s.succeed.hash = s.hash := rfl
@[simp] theorem succeed_prior : s.succeed.prior = s.prior := rfl
@[simp] theorem succeed_flen : s.succeed.flen = s.flen := rfl
@[simp] theorem succeed_buf : s.succeed.buf = s.buf := rfl
@[simp] theorem succeed_rstAsserted : s.succeed.rstAsserted = s.rstAsserted := rfl
@[simp] theorem succeed_bufDraw : s.succeed.bufDraw = s.bufDraw := rfl
@[simp] theorem succeed_draws : s.succeed.draws = s.draws := rfl
@[simp] theorem succeed_agenda : s.succeed.agenda = s.agenda := rfl
@[simp] theorem succeed_response : s.succeed.response = s.response := rfl

/-! ### State.takeException -/

@[simp] theorem takeException_ien (x : Exc) : (s.takeException x).ien = s.ien := rfl
@[simp] theorem takeException_status (x : Exc) : (s.takeException x).status = s.status.failed x := rfl
@[simp] theorem takeException_cmd (x : Exc) : (s.takeException x).cmd = s.cmd := rfl
@[simp] theorem takeException_src (x : Exc) : (s.takeException x).src = s.src := rfl
@[simp] theorem takeException_len (x : Exc) : (s.takeException x).len = s.len := rfl
@[simp] theorem takeException_dst (x : Exc) : (s.takeException x).dst = s.dst := rfl
@[simp] theorem takeException_outlen (x : Exc) : (s.takeException x).outlen = 0#32 := rfl
@[simp] theorem takeException_blksz (x : Exc) : (s.takeException x).blksz = s.blksz := rfl
@[simp] theorem takeException_key (x : Exc) : (s.takeException x).key = s.key := rfl
@[simp] theorem takeException_iv (x : Exc) : (s.takeException x).iv = s.iv := rfl
@[simp] theorem takeException_nonce (x : Exc) : (s.takeException x).nonce = s.nonce := rfl
@[simp] theorem takeException_cnt (x : Exc) : (s.takeException x).cnt = s.cnt := rfl
@[simp] theorem takeException_ksb (x : Exc) : (s.takeException x).ksb = s.ksb := rfl
@[simp] theorem takeException_hash (x : Exc) : (s.takeException x).hash = s.hash := rfl
@[simp] theorem takeException_prior (x : Exc) : (s.takeException x).prior = s.prior := rfl
@[simp] theorem takeException_flen (x : Exc) : (s.takeException x).flen = s.flen := rfl
@[simp] theorem takeException_buf (x : Exc) : (s.takeException x).buf = s.buf := rfl
@[simp] theorem takeException_rstAsserted (x : Exc) : (s.takeException x).rstAsserted = s.rstAsserted := rfl
@[simp] theorem takeException_bufDraw (x : Exc) : (s.takeException x).bufDraw = s.bufDraw := rfl
@[simp] theorem takeException_draws (x : Exc) : (s.takeException x).draws = s.draws := rfl
@[simp] theorem takeException_agenda (x : Exc) : (s.takeException x).agenda = s.agenda := rfl
@[simp] theorem takeException_response (x : Exc) : (s.takeException x).response = s.response := rfl

/-! ### State.writeStatus -/

@[simp] theorem writeStatus_ien (v : Word) : (s.writeStatus v).ien = s.ien := rfl
@[simp] theorem writeStatus_status (v : Word) : (s.writeStatus v).status = s.status.clearedBy v := rfl
@[simp] theorem writeStatus_cmd (v : Word) : (s.writeStatus v).cmd = s.cmd := rfl
@[simp] theorem writeStatus_src (v : Word) : (s.writeStatus v).src = s.src := rfl
@[simp] theorem writeStatus_len (v : Word) : (s.writeStatus v).len = s.len := rfl
@[simp] theorem writeStatus_dst (v : Word) : (s.writeStatus v).dst = s.dst := rfl
@[simp] theorem writeStatus_outlen (v : Word) : (s.writeStatus v).outlen = s.outlen := rfl
@[simp] theorem writeStatus_blksz (v : Word) : (s.writeStatus v).blksz = s.blksz := rfl
@[simp] theorem writeStatus_key (v : Word) : (s.writeStatus v).key = s.key := rfl
@[simp] theorem writeStatus_iv (v : Word) : (s.writeStatus v).iv = s.iv := rfl
@[simp] theorem writeStatus_nonce (v : Word) : (s.writeStatus v).nonce = s.nonce := rfl
@[simp] theorem writeStatus_cnt (v : Word) : (s.writeStatus v).cnt = s.cnt := rfl
@[simp] theorem writeStatus_ksb (v : Word) : (s.writeStatus v).ksb = s.ksb := rfl
@[simp] theorem writeStatus_hash (v : Word) : (s.writeStatus v).hash = s.hash := rfl
@[simp] theorem writeStatus_prior (v : Word) : (s.writeStatus v).prior = s.prior := rfl
@[simp] theorem writeStatus_flen (v : Word) : (s.writeStatus v).flen = s.flen := rfl
@[simp] theorem writeStatus_buf (v : Word) : (s.writeStatus v).buf = s.buf := rfl
@[simp] theorem writeStatus_rstAsserted (v : Word) : (s.writeStatus v).rstAsserted = s.rstAsserted := rfl
@[simp] theorem writeStatus_bufDraw (v : Word) : (s.writeStatus v).bufDraw = s.bufDraw := rfl
@[simp] theorem writeStatus_draws (v : Word) : (s.writeStatus v).draws = s.draws := rfl
@[simp] theorem writeStatus_agenda (v : Word) : (s.writeStatus v).agenda = s.agenda := rfl
@[simp] theorem writeStatus_response (v : Word) : (s.writeStatus v).response = s.response := rfl

/-! ### State.deliver -/

@[simp] theorem deliver_ien (out : List Byte) : (s.deliver out).ien = s.ien := rfl
@[simp] theorem deliver_status (out : List Byte) : (s.deliver out).status = s.status := rfl
@[simp] theorem deliver_cmd (out : List Byte) : (s.deliver out).cmd = s.cmd := rfl
@[simp] theorem deliver_src (out : List Byte) : (s.deliver out).src = s.src := rfl
@[simp] theorem deliver_len (out : List Byte) : (s.deliver out).len = s.len := rfl
@[simp] theorem deliver_dst (out : List Byte) : (s.deliver out).dst = s.dst := rfl
@[simp] theorem deliver_outlen (out : List Byte) : (s.deliver out).outlen = BitVec.ofNat 32 out.length := rfl
@[simp] theorem deliver_blksz (out : List Byte) : (s.deliver out).blksz = s.blksz := rfl
@[simp] theorem deliver_key (out : List Byte) : (s.deliver out).key = s.key := rfl
@[simp] theorem deliver_iv (out : List Byte) : (s.deliver out).iv = s.iv := rfl
@[simp] theorem deliver_nonce (out : List Byte) : (s.deliver out).nonce = s.nonce := rfl
@[simp] theorem deliver_cnt (out : List Byte) : (s.deliver out).cnt = s.cnt := rfl
@[simp] theorem deliver_ksb (out : List Byte) : (s.deliver out).ksb = s.ksb := rfl
@[simp] theorem deliver_hash (out : List Byte) : (s.deliver out).hash = s.hash := rfl
@[simp] theorem deliver_prior (out : List Byte) : (s.deliver out).prior = s.prior := rfl
@[simp] theorem deliver_flen (out : List Byte) : (s.deliver out).flen = s.flen := rfl
@[simp] theorem deliver_buf (out : List Byte) : (s.deliver out).buf = s.buf.writeBytes s.dst.toNat out := rfl
@[simp] theorem deliver_rstAsserted (out : List Byte) : (s.deliver out).rstAsserted = s.rstAsserted := rfl
@[simp] theorem deliver_bufDraw (out : List Byte) : (s.deliver out).bufDraw = s.bufDraw := rfl
@[simp] theorem deliver_draws (out : List Byte) : (s.deliver out).draws = s.draws := rfl
@[simp] theorem deliver_agenda (out : List Byte) : (s.deliver out).agenda = s.agenda := rfl
@[simp] theorem deliver_response (out : List Byte) : (s.deliver out).response = s.response := rfl

/-! ### State.deliverNothing -/

@[simp] theorem deliverNothing_ien : s.deliverNothing.ien = s.ien := rfl
@[simp] theorem deliverNothing_status : s.deliverNothing.status = s.status := rfl
@[simp] theorem deliverNothing_cmd : s.deliverNothing.cmd = s.cmd := rfl
@[simp] theorem deliverNothing_src : s.deliverNothing.src = s.src := rfl
@[simp] theorem deliverNothing_len : s.deliverNothing.len = s.len := rfl
@[simp] theorem deliverNothing_dst : s.deliverNothing.dst = s.dst := rfl
@[simp] theorem deliverNothing_outlen : s.deliverNothing.outlen = 0#32 := rfl
@[simp] theorem deliverNothing_blksz : s.deliverNothing.blksz = s.blksz := rfl
@[simp] theorem deliverNothing_key : s.deliverNothing.key = s.key := rfl
@[simp] theorem deliverNothing_iv : s.deliverNothing.iv = s.iv := rfl
@[simp] theorem deliverNothing_nonce : s.deliverNothing.nonce = s.nonce := rfl
@[simp] theorem deliverNothing_cnt : s.deliverNothing.cnt = s.cnt := rfl
@[simp] theorem deliverNothing_ksb : s.deliverNothing.ksb = s.ksb := rfl
@[simp] theorem deliverNothing_hash : s.deliverNothing.hash = s.hash := rfl
@[simp] theorem deliverNothing_prior : s.deliverNothing.prior = s.prior := rfl
@[simp] theorem deliverNothing_flen : s.deliverNothing.flen = s.flen := rfl
@[simp] theorem deliverNothing_buf : s.deliverNothing.buf = s.buf := rfl
@[simp] theorem deliverNothing_rstAsserted : s.deliverNothing.rstAsserted = s.rstAsserted := rfl
@[simp] theorem deliverNothing_bufDraw : s.deliverNothing.bufDraw = s.bufDraw := rfl
@[simp] theorem deliverNothing_draws : s.deliverNothing.draws = s.draws := rfl
@[simp] theorem deliverNothing_agenda : s.deliverNothing.agenda = s.agenda := rfl
@[simp] theorem deliverNothing_response : s.deliverNothing.response = s.response := rfl

/-! ### State.setHash -/

@[simp] theorem setHash_ien (h : HashState) (p : Nat) : (s.setHash h p).ien = s.ien := rfl
@[simp] theorem setHash_status (h : HashState) (p : Nat) : (s.setHash h p).status = s.status := rfl
@[simp] theorem setHash_cmd (h : HashState) (p : Nat) : (s.setHash h p).cmd = s.cmd := rfl
@[simp] theorem setHash_src (h : HashState) (p : Nat) : (s.setHash h p).src = s.src := rfl
@[simp] theorem setHash_len (h : HashState) (p : Nat) : (s.setHash h p).len = s.len := rfl
@[simp] theorem setHash_dst (h : HashState) (p : Nat) : (s.setHash h p).dst = s.dst := rfl
@[simp] theorem setHash_outlen (h : HashState) (p : Nat) : (s.setHash h p).outlen = s.outlen := rfl
@[simp] theorem setHash_blksz (h : HashState) (p : Nat) : (s.setHash h p).blksz = s.blksz := rfl
@[simp] theorem setHash_key (h : HashState) (p : Nat) : (s.setHash h p).key = s.key := rfl
@[simp] theorem setHash_iv (h : HashState) (p : Nat) : (s.setHash h p).iv = s.iv := rfl
@[simp] theorem setHash_nonce (h : HashState) (p : Nat) : (s.setHash h p).nonce = s.nonce := rfl
@[simp] theorem setHash_cnt (h : HashState) (p : Nat) : (s.setHash h p).cnt = s.cnt := rfl
@[simp] theorem setHash_ksb (h : HashState) (p : Nat) : (s.setHash h p).ksb = s.ksb := rfl
@[simp] theorem setHash_hash (h : HashState) (p : Nat) : (s.setHash h p).hash = h := rfl
@[simp] theorem setHash_prior (h : HashState) (p : Nat) : (s.setHash h p).prior = pairOfNat p := rfl
@[simp] theorem setHash_flen (h : HashState) (p : Nat) : (s.setHash h p).flen = s.flen := rfl
@[simp] theorem setHash_buf (h : HashState) (p : Nat) : (s.setHash h p).buf = s.buf := rfl
@[simp] theorem setHash_rstAsserted (h : HashState) (p : Nat) : (s.setHash h p).rstAsserted = s.rstAsserted := rfl
@[simp] theorem setHash_bufDraw (h : HashState) (p : Nat) : (s.setHash h p).bufDraw = s.bufDraw := rfl
@[simp] theorem setHash_draws (h : HashState) (p : Nat) : (s.setHash h p).draws = s.draws := rfl
@[simp] theorem setHash_agenda (h : HashState) (p : Nat) : (s.setHash h p).agenda = s.agenda := rfl
@[simp] theorem setHash_response (h : HashState) (p : Nat) : (s.setHash h p).response = s.response := rfl

/-! ### State.setKeystream -/

@[simp] theorem setKeystream_ien (k : Quad) (c : Pair) : (s.setKeystream k c).ien = s.ien := rfl
@[simp] theorem setKeystream_status (k : Quad) (c : Pair) : (s.setKeystream k c).status = s.status := rfl
@[simp] theorem setKeystream_cmd (k : Quad) (c : Pair) : (s.setKeystream k c).cmd = s.cmd := rfl
@[simp] theorem setKeystream_src (k : Quad) (c : Pair) : (s.setKeystream k c).src = s.src := rfl
@[simp] theorem setKeystream_len (k : Quad) (c : Pair) : (s.setKeystream k c).len = s.len := rfl
@[simp] theorem setKeystream_dst (k : Quad) (c : Pair) : (s.setKeystream k c).dst = s.dst := rfl
@[simp] theorem setKeystream_outlen (k : Quad) (c : Pair) : (s.setKeystream k c).outlen = s.outlen := rfl
@[simp] theorem setKeystream_blksz (k : Quad) (c : Pair) : (s.setKeystream k c).blksz = s.blksz := rfl
@[simp] theorem setKeystream_key (k : Quad) (c : Pair) : (s.setKeystream k c).key = s.key := rfl
@[simp] theorem setKeystream_iv (k : Quad) (c : Pair) : (s.setKeystream k c).iv = s.iv := rfl
@[simp] theorem setKeystream_nonce (k : Quad) (c : Pair) : (s.setKeystream k c).nonce = s.nonce := rfl
@[simp] theorem setKeystream_cnt (k : Quad) (c : Pair) : (s.setKeystream k c).cnt = c := rfl
@[simp] theorem setKeystream_ksb (k : Quad) (c : Pair) : (s.setKeystream k c).ksb = k := rfl
@[simp] theorem setKeystream_hash (k : Quad) (c : Pair) : (s.setKeystream k c).hash = s.hash := rfl
@[simp] theorem setKeystream_prior (k : Quad) (c : Pair) : (s.setKeystream k c).prior = s.prior := rfl
@[simp] theorem setKeystream_flen (k : Quad) (c : Pair) : (s.setKeystream k c).flen = s.flen := rfl
@[simp] theorem setKeystream_buf (k : Quad) (c : Pair) : (s.setKeystream k c).buf = s.buf := rfl
@[simp] theorem setKeystream_rstAsserted (k : Quad) (c : Pair) : (s.setKeystream k c).rstAsserted = s.rstAsserted := rfl
@[simp] theorem setKeystream_bufDraw (k : Quad) (c : Pair) : (s.setKeystream k c).bufDraw = s.bufDraw := rfl
@[simp] theorem setKeystream_draws (k : Quad) (c : Pair) : (s.setKeystream k c).draws = s.draws := rfl
@[simp] theorem setKeystream_agenda (k : Quad) (c : Pair) : (s.setKeystream k c).agenda = s.agenda := rfl
@[simp] theorem setKeystream_response (k : Quad) (c : Pair) : (s.setKeystream k c).response = s.response := rfl

/-! ### State.memWrite -/

@[simp] theorem memWrite_ien (a : Nat) (v : List Byte) : (s.memWrite a v).ien = s.ien := rfl
@[simp] theorem memWrite_status (a : Nat) (v : List Byte) : (s.memWrite a v).status = s.status := rfl
@[simp] theorem memWrite_cmd (a : Nat) (v : List Byte) : (s.memWrite a v).cmd = s.cmd := rfl
@[simp] theorem memWrite_src (a : Nat) (v : List Byte) : (s.memWrite a v).src = s.src := rfl
@[simp] theorem memWrite_len (a : Nat) (v : List Byte) : (s.memWrite a v).len = s.len := rfl
@[simp] theorem memWrite_dst (a : Nat) (v : List Byte) : (s.memWrite a v).dst = s.dst := rfl
@[simp] theorem memWrite_outlen (a : Nat) (v : List Byte) : (s.memWrite a v).outlen = s.outlen := rfl
@[simp] theorem memWrite_blksz (a : Nat) (v : List Byte) : (s.memWrite a v).blksz = s.blksz := rfl
@[simp] theorem memWrite_key (a : Nat) (v : List Byte) : (s.memWrite a v).key = s.key := rfl
@[simp] theorem memWrite_iv (a : Nat) (v : List Byte) : (s.memWrite a v).iv = s.iv := rfl
@[simp] theorem memWrite_nonce (a : Nat) (v : List Byte) : (s.memWrite a v).nonce = s.nonce := rfl
@[simp] theorem memWrite_cnt (a : Nat) (v : List Byte) : (s.memWrite a v).cnt = s.cnt := rfl
@[simp] theorem memWrite_ksb (a : Nat) (v : List Byte) : (s.memWrite a v).ksb = s.ksb := rfl
@[simp] theorem memWrite_hash (a : Nat) (v : List Byte) : (s.memWrite a v).hash = s.hash := rfl
@[simp] theorem memWrite_prior (a : Nat) (v : List Byte) : (s.memWrite a v).prior = s.prior := rfl
@[simp] theorem memWrite_flen (a : Nat) (v : List Byte) : (s.memWrite a v).flen = s.flen := rfl
@[simp] theorem memWrite_buf (a : Nat) (v : List Byte) : (s.memWrite a v).buf = s.buf.writeBytes a v := rfl
@[simp] theorem memWrite_rstAsserted (a : Nat) (v : List Byte) : (s.memWrite a v).rstAsserted = s.rstAsserted := rfl
@[simp] theorem memWrite_bufDraw (a : Nat) (v : List Byte) : (s.memWrite a v).bufDraw = s.bufDraw := rfl
@[simp] theorem memWrite_draws (a : Nat) (v : List Byte) : (s.memWrite a v).draws = s.draws := rfl
@[simp] theorem memWrite_agenda (a : Nat) (v : List Byte) : (s.memWrite a v).agenda = s.agenda := rfl
@[simp] theorem memWrite_response (a : Nat) (v : List Byte) : (s.memWrite a v).response = s.response := rfl

/-! ### State.forgetRange -/

@[simp] theorem forgetRange_ien (a k : Nat) : (s.forgetRange a k).ien = s.ien := rfl
@[simp] theorem forgetRange_status (a k : Nat) : (s.forgetRange a k).status = s.status := rfl
@[simp] theorem forgetRange_cmd (a k : Nat) : (s.forgetRange a k).cmd = s.cmd := rfl
@[simp] theorem forgetRange_src (a k : Nat) : (s.forgetRange a k).src = s.src := rfl
@[simp] theorem forgetRange_len (a k : Nat) : (s.forgetRange a k).len = s.len := rfl
@[simp] theorem forgetRange_dst (a k : Nat) : (s.forgetRange a k).dst = s.dst := rfl
@[simp] theorem forgetRange_outlen (a k : Nat) : (s.forgetRange a k).outlen = s.outlen := rfl
@[simp] theorem forgetRange_blksz (a k : Nat) : (s.forgetRange a k).blksz = s.blksz := rfl
@[simp] theorem forgetRange_key (a k : Nat) : (s.forgetRange a k).key = s.key := rfl
@[simp] theorem forgetRange_iv (a k : Nat) : (s.forgetRange a k).iv = s.iv := rfl
@[simp] theorem forgetRange_nonce (a k : Nat) : (s.forgetRange a k).nonce = s.nonce := rfl
@[simp] theorem forgetRange_cnt (a k : Nat) : (s.forgetRange a k).cnt = s.cnt := rfl
@[simp] theorem forgetRange_ksb (a k : Nat) : (s.forgetRange a k).ksb = s.ksb := rfl
@[simp] theorem forgetRange_hash (a k : Nat) : (s.forgetRange a k).hash = s.hash := rfl
@[simp] theorem forgetRange_prior (a k : Nat) : (s.forgetRange a k).prior = s.prior := rfl
@[simp] theorem forgetRange_flen (a k : Nat) : (s.forgetRange a k).flen = s.flen := rfl
@[simp] theorem forgetRange_buf (a k : Nat) : (s.forgetRange a k).buf = s.buf.writeBytes a (freeBytes s.draws a k) := rfl
@[simp] theorem forgetRange_rstAsserted (a k : Nat) : (s.forgetRange a k).rstAsserted = s.rstAsserted := rfl
@[simp] theorem forgetRange_bufDraw (a k : Nat) : (s.forgetRange a k).bufDraw = s.bufDraw := rfl
@[simp] theorem forgetRange_draws (a k : Nat) : (s.forgetRange a k).draws = s.draws + 1 := rfl
@[simp] theorem forgetRange_agenda (a k : Nat) : (s.forgetRange a k).agenda = s.agenda := rfl
@[simp] theorem forgetRange_response (a k : Nat) : (s.forgetRange a k).response = s.response := rfl

/-! ### State.resetRegisters -/

@[simp] theorem resetRegisters_ien : s.resetRegisters.ien = ⟨false, false⟩ := rfl
@[simp] theorem resetRegisters_status : s.resetRegisters.status = ⟨false, false, false, false, 0#4⟩ := rfl
@[simp] theorem resetRegisters_cmd : s.resetRegisters.cmd = 0#32 := rfl
@[simp] theorem resetRegisters_src : s.resetRegisters.src = 0#32 := rfl
@[simp] theorem resetRegisters_len : s.resetRegisters.len = 0#32 := rfl
@[simp] theorem resetRegisters_dst : s.resetRegisters.dst = 0#32 := rfl
@[simp] theorem resetRegisters_outlen : s.resetRegisters.outlen = 0#32 := rfl
@[simp] theorem resetRegisters_blksz : s.resetRegisters.blksz = 0#32 := rfl
@[simp] theorem resetRegisters_key : s.resetRegisters.key = zeroQuad := rfl
@[simp] theorem resetRegisters_iv : s.resetRegisters.iv = zeroQuad := rfl
@[simp] theorem resetRegisters_nonce : s.resetRegisters.nonce = zeroPair := rfl
@[simp] theorem resetRegisters_cnt : s.resetRegisters.cnt = zeroPair := rfl
@[simp] theorem resetRegisters_ksb : s.resetRegisters.ksb = zeroQuad := rfl
@[simp] theorem resetRegisters_hash : s.resetRegisters.hash = ⟨0#32, 0#32, 0#32, 0#32, 0#32⟩ := rfl
@[simp] theorem resetRegisters_prior : s.resetRegisters.prior = zeroPair := rfl
@[simp] theorem resetRegisters_flen : s.resetRegisters.flen = zeroPair := rfl
@[simp] theorem resetRegisters_buf : s.resetRegisters.buf = s.buf := rfl
@[simp] theorem resetRegisters_rstAsserted : s.resetRegisters.rstAsserted = s.rstAsserted := rfl
@[simp] theorem resetRegisters_bufDraw : s.resetRegisters.bufDraw = s.bufDraw := rfl
@[simp] theorem resetRegisters_draws : s.resetRegisters.draws = s.draws := rfl
@[simp] theorem resetRegisters_agenda : s.resetRegisters.agenda = s.agenda := rfl
@[simp] theorem resetRegisters_response : s.resetRegisters.response = s.response := rfl

/-! ### State.respond -/

@[simp] theorem respond_ien (r : Option BusResponse) : (s.respond r).ien = s.ien := rfl
@[simp] theorem respond_status (r : Option BusResponse) : (s.respond r).status = s.status := rfl
@[simp] theorem respond_cmd (r : Option BusResponse) : (s.respond r).cmd = s.cmd := rfl
@[simp] theorem respond_src (r : Option BusResponse) : (s.respond r).src = s.src := rfl
@[simp] theorem respond_len (r : Option BusResponse) : (s.respond r).len = s.len := rfl
@[simp] theorem respond_dst (r : Option BusResponse) : (s.respond r).dst = s.dst := rfl
@[simp] theorem respond_outlen (r : Option BusResponse) : (s.respond r).outlen = s.outlen := rfl
@[simp] theorem respond_blksz (r : Option BusResponse) : (s.respond r).blksz = s.blksz := rfl
@[simp] theorem respond_key (r : Option BusResponse) : (s.respond r).key = s.key := rfl
@[simp] theorem respond_iv (r : Option BusResponse) : (s.respond r).iv = s.iv := rfl
@[simp] theorem respond_nonce (r : Option BusResponse) : (s.respond r).nonce = s.nonce := rfl
@[simp] theorem respond_cnt (r : Option BusResponse) : (s.respond r).cnt = s.cnt := rfl
@[simp] theorem respond_ksb (r : Option BusResponse) : (s.respond r).ksb = s.ksb := rfl
@[simp] theorem respond_hash (r : Option BusResponse) : (s.respond r).hash = s.hash := rfl
@[simp] theorem respond_prior (r : Option BusResponse) : (s.respond r).prior = s.prior := rfl
@[simp] theorem respond_flen (r : Option BusResponse) : (s.respond r).flen = s.flen := rfl
@[simp] theorem respond_buf (r : Option BusResponse) : (s.respond r).buf = s.buf := rfl
@[simp] theorem respond_rstAsserted (r : Option BusResponse) : (s.respond r).rstAsserted = s.rstAsserted := rfl
@[simp] theorem respond_bufDraw (r : Option BusResponse) : (s.respond r).bufDraw = s.bufDraw := rfl
@[simp] theorem respond_draws (r : Option BusResponse) : (s.respond r).draws = s.draws := rfl
@[simp] theorem respond_agenda (r : Option BusResponse) : (s.respond r).agenda = s.agenda := rfl
@[simp] theorem respond_response (r : Option BusResponse) : (s.respond r).response = r := rfl

/-! ### hardwareReset -/

@[simp] theorem hardwareReset_ien : (hardwareReset s).ien = ⟨false, false⟩ := rfl
@[simp] theorem hardwareReset_status : (hardwareReset s).status = ⟨false, false, false, false, 0#4⟩ := rfl
@[simp] theorem hardwareReset_cmd : (hardwareReset s).cmd = 0#32 := rfl
@[simp] theorem hardwareReset_src : (hardwareReset s).src = 0#32 := rfl
@[simp] theorem hardwareReset_len : (hardwareReset s).len = 0#32 := rfl
@[simp] theorem hardwareReset_dst : (hardwareReset s).dst = 0#32 := rfl
@[simp] theorem hardwareReset_outlen : (hardwareReset s).outlen = 0#32 := rfl
@[simp] theorem hardwareReset_blksz : (hardwareReset s).blksz = 0#32 := rfl
@[simp] theorem hardwareReset_key : (hardwareReset s).key = zeroQuad := rfl
@[simp] theorem hardwareReset_iv : (hardwareReset s).iv = zeroQuad := rfl
@[simp] theorem hardwareReset_nonce : (hardwareReset s).nonce = zeroPair := rfl
@[simp] theorem hardwareReset_cnt : (hardwareReset s).cnt = zeroPair := rfl
@[simp] theorem hardwareReset_ksb : (hardwareReset s).ksb = zeroQuad := rfl
@[simp] theorem hardwareReset_hash : (hardwareReset s).hash = ⟨0#32, 0#32, 0#32, 0#32, 0#32⟩ := rfl
@[simp] theorem hardwareReset_prior : (hardwareReset s).prior = zeroPair := rfl
@[simp] theorem hardwareReset_flen : (hardwareReset s).flen = zeroPair := rfl
@[simp] theorem hardwareReset_buf : (hardwareReset s).buf = [] := rfl
@[simp] theorem hardwareReset_rstAsserted : (hardwareReset s).rstAsserted = true := rfl
@[simp] theorem hardwareReset_bufDraw : (hardwareReset s).bufDraw = s.draws := rfl
@[simp] theorem hardwareReset_draws : (hardwareReset s).draws = s.draws + 1 := rfl
@[simp] theorem hardwareReset_agenda : (hardwareReset s).agenda = s.agenda := rfl
@[simp] theorem hardwareReset_response : (hardwareReset s).response = s.response := rfl

/-! ### releaseReset -/

@[simp] theorem releaseReset_ien : (releaseReset s).ien = ⟨false, false⟩ := rfl
@[simp] theorem releaseReset_status : (releaseReset s).status = ⟨false, false, false, false, 0#4⟩ := rfl
@[simp] theorem releaseReset_cmd : (releaseReset s).cmd = 0#32 := rfl
@[simp] theorem releaseReset_src : (releaseReset s).src = 0#32 := rfl
@[simp] theorem releaseReset_len : (releaseReset s).len = 0#32 := rfl
@[simp] theorem releaseReset_dst : (releaseReset s).dst = 0#32 := rfl
@[simp] theorem releaseReset_outlen : (releaseReset s).outlen = 0#32 := rfl
@[simp] theorem releaseReset_blksz : (releaseReset s).blksz = 0#32 := rfl
@[simp] theorem releaseReset_key : (releaseReset s).key = zeroQuad := rfl
@[simp] theorem releaseReset_iv : (releaseReset s).iv = zeroQuad := rfl
@[simp] theorem releaseReset_nonce : (releaseReset s).nonce = zeroPair := rfl
@[simp] theorem releaseReset_cnt : (releaseReset s).cnt = zeroPair := rfl
@[simp] theorem releaseReset_ksb : (releaseReset s).ksb = zeroQuad := rfl
@[simp] theorem releaseReset_hash : (releaseReset s).hash = ⟨0#32, 0#32, 0#32, 0#32, 0#32⟩ := rfl
@[simp] theorem releaseReset_prior : (releaseReset s).prior = zeroPair := rfl
@[simp] theorem releaseReset_flen : (releaseReset s).flen = zeroPair := rfl
@[simp] theorem releaseReset_buf : (releaseReset s).buf = s.buf := rfl
@[simp] theorem releaseReset_rstAsserted : (releaseReset s).rstAsserted = false := rfl
@[simp] theorem releaseReset_bufDraw : (releaseReset s).bufDraw = s.bufDraw := rfl
@[simp] theorem releaseReset_draws : (releaseReset s).draws = s.draws := rfl
@[simp] theorem releaseReset_agenda : (releaseReset s).agenda = s.agenda := rfl
@[simp] theorem releaseReset_response : (releaseReset s).response = s.response := rfl

/-! ### Status.accepted -/

@[simp] theorem accepted_busy : st.accepted.busy = true := rfl
@[simp] theorem accepted_done : st.accepted.done = false := rfl
@[simp] theorem accepted_err : st.accepted.err = false := rfl
@[simp] theorem accepted_wrbusy : st.accepted.wrbusy = st.wrbusy := rfl
@[simp] theorem accepted_errcode : st.accepted.errcode = 0#4 := rfl

/-! ### Status.succeeded -/

@[simp] theorem succeeded_busy : st.succeeded.busy = false := rfl
@[simp] theorem succeeded_done : st.succeeded.done = true := rfl
@[simp] theorem succeeded_err : st.succeeded.err = false := rfl
@[simp] theorem succeeded_wrbusy : st.succeeded.wrbusy = st.wrbusy := rfl
@[simp] theorem succeeded_errcode : st.succeeded.errcode = 0#4 := rfl

/-! ### Status.failed -/

@[simp] theorem failed_busy (x : Exc) : (st.failed x).busy = false := rfl
@[simp] theorem failed_done (x : Exc) : (st.failed x).done = true := rfl
@[simp] theorem failed_err (x : Exc) : (st.failed x).err = true := rfl
@[simp] theorem failed_wrbusy (x : Exc) : (st.failed x).wrbusy = st.wrbusy := rfl
@[simp] theorem failed_errcode (x : Exc) : (st.failed x).errcode = x.code := rfl

/-! ### Status.clearedBy -/

@[simp] theorem clearedBy_busy (v : Word) : (st.clearedBy v).busy = st.busy := rfl
@[simp] theorem clearedBy_done (v : Word) : (st.clearedBy v).done = (st.done && !v.getLsbD 1) := rfl
@[simp] theorem clearedBy_err (v : Word) : (st.clearedBy v).err = (st.err && !v.getLsbD 2) := rfl
@[simp] theorem clearedBy_wrbusy (v : Word) : (st.clearedBy v).wrbusy = (st.wrbusy && !v.getLsbD 3) := rfl
@[simp] theorem clearedBy_errcode (v : Word) : (st.clearedBy v).errcode = st.errcode := rfl

/-! ### Status.writeDiscarded -/

@[simp] theorem writeDiscarded_busy : st.writeDiscarded.busy = st.busy := rfl
@[simp] theorem writeDiscarded_done : st.writeDiscarded.done = st.done := rfl
@[simp] theorem writeDiscarded_err : st.writeDiscarded.err = st.err := rfl
@[simp] theorem writeDiscarded_wrbusy : st.writeDiscarded.wrbusy = true := rfl
@[simp] theorem writeDiscarded_errcode : st.writeDiscarded.errcode = st.errcode := rfl

/-! ### Reading a byte depends on the buffer and its draw only -/

/-- The updates that leave `BUF` and its draw alone leave every byte as it reads. -/
theorem bufByte_congr {s t : State} (hb : t.buf = s.buf) (hd : t.bufDraw = s.bufDraw) (a : Nat) :
    t.bufByte a = s.bufByte a := by
  simp only [State.bufByte, hb, hd]

end Sys2Proof.Laws
end

