-- ==== Sys2Proof/Laws/Memory.lean ====
section
/-! SUPPORT. What the memory operations do: reading after a write, and that every operation keeps the canonical form. -/

namespace Sys2Proof.Laws

open Sys2Proof Sys2Proof.Machine

/-! ### One byte -/

@[simp] theorem find?_write_self (m : Memory) (a : Nat) (v : Byte) : (m.write a v).find? a = some v := by
  induction m with
  | nil => simp [Memory.write, Memory.find?]
  | cons c m ih =>
    obtain ⟨b, w⟩ := c
    simp only [Memory.write]
    split
    · simp [Memory.find?]
    · split
      · simp [Memory.find?]
      · simp [Memory.find?, *]

theorem find?_write_ne (m : Memory) {a c : Nat} (v : Byte) (h : c ≠ a) :
    (m.write a v).find? c = m.find? c := by
  induction m with
  | nil => simp [Memory.write, Memory.find?, h]
  | cons d m ih =>
    obtain ⟨b, w⟩ := d
    simp only [Memory.write]
    split
    · simp [Memory.find?, h]
    · split
      · next hab => subst hab; simp [Memory.find?, h]
      · simp [Memory.find?, ih]

theorem mem_write {m : Memory} {a : Nat} {v : Byte} {c : Host.Cell} (h : c ∈ m.write a v) :
    c = (a, v) ∨ c ∈ m := by
  induction m with
  | nil => simpa [Memory.write] using h
  | cons d m ih =>
    obtain ⟨b, w⟩ := d
    simp only [Memory.write] at h
    split at h
    · simpa using h
    · split at h
      · rcases List.mem_cons.1 h with h | h
        · exact .inl h
        · exact .inr (List.mem_cons_of_mem _ h)
      · rcases List.mem_cons.1 h with h | h
        · exact .inr (h ▸ List.mem_cons_self)
        · rcases ih h with h | h
          · exact .inl h
          · exact .inr (List.mem_cons_of_mem _ h)

/-- Writing a byte inside the buffer keeps the canonical form. -/
theorem wf_write {m : Memory} (hm : m.wf) {a : Nat} (v : Byte) (ha : a < Config.bufSize) :
    (m.write a v).wf := by
  refine ⟨?_, fun c hc => ?_⟩
  · obtain ⟨hp, -⟩ := hm
    induction m with
    | nil => simp [Memory.write]
    | cons d m ih =>
      obtain ⟨b, w⟩ := d
      rw [List.pairwise_cons] at hp
      simp only [Memory.write]
      split
      · next hab =>
        refine List.pairwise_cons.2 ⟨fun c hc => ?_, List.pairwise_cons.2 hp⟩
        rcases List.mem_cons.1 hc with rfl | hc
        · exact hab
        · exact Nat.lt_trans hab (hp.1 c hc)
      · split
        · next hab => subst hab; exact List.pairwise_cons.2 hp
        · next h1 h2 =>
          refine List.pairwise_cons.2 ⟨fun c hc => ?_, ih hp.2⟩
          rcases mem_write hc with rfl | hc
          · show b < a; omega
          · exact hp.1 c hc
  · rcases mem_write hc with rfl | hc
    · exact ha
    · exact hm.2 c hc

/-! ### A byte sequence -/

theorem find?_writeBytes_outside (vs : List Byte) : ∀ (m : Memory) (a c : Nat),
    c < a ∨ a + vs.length ≤ c → (m.writeBytes a vs).find? c = m.find? c := by
  induction vs with
  | nil => intro m a c _; rfl
  | cons v vs ih =>
    intro m a c h
    simp only [List.length_cons] at h
    rw [Memory.writeBytes, ih _ _ _ (by omega), find?_write_ne _ _ (by omega)]

theorem find?_writeBytes_inside (vs : List Byte) : ∀ (m : Memory) (a i : Nat) (h : i < vs.length),
    (m.writeBytes a vs).find? (a + i) = some vs[i] := by
  induction vs with
  | nil => intro m a i h; exact absurd h (Nat.not_lt_zero _)
  | cons v vs ih =>
    intro m a i h
    rw [Memory.writeBytes]
    cases i with
    | zero => rw [find?_writeBytes_outside _ _ _ _ (by omega)]; simp
    | succ i =>
      have := ih (m.write a v) (a + 1) i (by simpa using h)
      rw [show a + (i + 1) = a + 1 + i by omega, this]; simp

/-- Writing a byte sequence inside the buffer keeps the canonical form. -/
theorem wf_writeBytes (vs : List Byte) : ∀ (m : Memory) (a : Nat), m.wf → a + vs.length ≤ Config.bufSize →
    (m.writeBytes a vs).wf := by
  induction vs with
  | nil => intro m a hm _; exact hm
  | cons v vs ih =>
    intro m a hm h
    simp only [List.length_cons] at h
    exact ih _ _ (wf_write hm v (by omega)) (by omega)

theorem wf_nil : Memory.wf [] := ⟨List.Pairwise.nil, fun _ h => absurd h List.not_mem_nil⟩

/-- In canonical form equal contents are equal data. -/
theorem memory_ext : ∀ {m n : Memory}, m.wf → n.wf → (∀ a, m.find? a = n.find? a) → m = n := by
  have none_of_lt : ∀ {m : Memory} {a : Nat}, (∀ c ∈ m, a < c.1) → m.find? a = none := by
    intro m a h
    induction m with
    | nil => rfl
    | cons c m ih =>
      obtain ⟨b, w⟩ := c
      have hb : a < b := h (b, w) List.mem_cons_self
      rw [Memory.find?, if_neg (by omega), ih fun c hc => h c (List.mem_cons_of_mem _ hc)]
  intro m
  induction m with
  | nil =>
    intro n _ _ h
    cases n with
    | nil => rfl
    | cons c n => have := h c.1; simp [Memory.find?] at this
  | cons c m ih =>
    intro n hm hn h
    obtain ⟨a, v⟩ := c
    cases n with
    | nil => have := h a; simp [Memory.find?] at this
    | cons d n =>
      obtain ⟨b, w⟩ := d
      have hmp := List.pairwise_cons.1 hm.1
      have hnp := List.pairwise_cons.1 hn.1
      have hab : a = b := by
        rcases Nat.lt_trichotomy a b with hlt | heq | hlt
        · have := h a
          rw [Memory.find?, if_pos rfl, Memory.find?, if_neg (by omega),
            none_of_lt fun c hc => Nat.lt_trans hlt (hnp.1 c hc)] at this
          cases this
        · exact heq
        · have := h b
          rw [Memory.find?, if_neg (by omega), Memory.find?, if_pos rfl,
            none_of_lt fun c hc => Nat.lt_trans hlt (hmp.1 c hc)] at this
          cases this
      subst hab
      have hv : v = w := by simpa [Memory.find?] using h a
      subst hv
      rw [ih (n := n) ⟨hmp.2, fun c hc => hm.2 c (List.mem_cons_of_mem _ hc)⟩
        ⟨hnp.2, fun c hc => hn.2 c (List.mem_cons_of_mem _ hc)⟩ ?_]
      intro c
      by_cases hc : c = a
      · subst hc; rw [none_of_lt fun d hd => hmp.1 d hd, none_of_lt fun d hd => hnp.1 d hd]
      · have := h c
        rwa [Memory.find?, if_neg hc, Memory.find?, if_neg hc] at this

/-! ### Reading the buffer -/

@[simp] theorem memRead_length (s : State) : ∀ (n a : Nat), (s.memRead a n).length = n := by
  intro n
  induction n with
  | zero => intro a; rfl
  | succ n ih => intro a; simp [State.memRead, ih]

theorem memRead_getElem (s : State) : ∀ (n a i : Nat) (h : i < (s.memRead a n).length),
    (s.memRead a n)[i] = s.bufByte (a + i) := by
  intro n
  induction n with
  | zero => intro a i h; exact absurd h (Nat.not_lt_zero _)
  | succ n ih =>
    intro a i h
    cases i with
    | zero => rfl
    | succ i =>
      have := ih (a + 1) i (by simpa [State.memRead] using h)
      simp only [State.memRead, List.getElem_cons_succ]
      rw [this, show a + 1 + i = a + (i + 1) by omega]

/-- `MemRead` of two ranges one after the other. -/
theorem memRead_append (s : State) : ∀ (m n a : Nat), s.memRead a (m + n) = s.memRead a m ++ s.memRead (a + m) n := by
  intro m
  induction m with
  | zero => intros; simp [State.memRead]
  | succ m ih =>
    intro n a
    rw [show m + 1 + n = m + n + 1 by omega]
    simp [State.memRead, ih, Nat.add_assoc, Nat.add_comm 1 m]

/-- `MemRead` depends only on `BUF` and on the draw that fills it. -/
theorem memRead_congr {s t : State} (hb : s.buf = t.buf) (hd : s.bufDraw = t.bufDraw) :
    ∀ n a, s.memRead a n = t.memRead a n := by
  intro n
  induction n with
  | zero => intros; rfl
  | succ n ih => intro a; simp [State.memRead, ih, State.bufByte, hb, hd]

@[simp] theorem source_length (s : State) : s.source.length = s.len.toNat := memRead_length _ _ _

/-- A byte of `BUF` after an output was delivered. -/
theorem bufByte_deliver_inside (s : State) (out : List Byte) (i : Nat) (h : i < out.length) :
    (s.deliver out).bufByte (s.dst.toNat + i) = out[i] := by
  simp [State.bufByte, find?_writeBytes_inside, h]

theorem bufByte_deliver_outside (s : State) (out : List Byte) (a : Nat)
    (h : a < s.dst.toNat ∨ s.dst.toNat + out.length ≤ a) : (s.deliver out).bufByte a = s.bufByte a := by
  simp [State.bufByte, find?_writeBytes_outside _ _ _ _ h]

/-- Reading back a byte sequence that was written. -/
theorem memRead_written {s : State} {m : Memory} {a : Nat} {vs : List Byte} (h : s.buf = m.writeBytes a vs) :
    s.memRead a vs.length = vs := by
  apply List.ext_getElem (by simp)
  intro i h1 h2
  rw [memRead_getElem, State.bufByte, h, find?_writeBytes_inside vs m a i h2]
  rfl

@[simp] theorem freeBytes_length (n : Nat) : ∀ (k a : Nat), (freeBytes n a k).length = k := by
  intro k
  induction k with
  | zero => intro a; rfl
  | succ k ih => intro a; simp [freeBytes, ih]

end Sys2Proof.Laws
end

