-- ==== Sys2Proof/Laws/Complete.lean ====
section
/-! SUPPORT. What the shared operations of a command can do, said once: completion, the checks, the engine's turn, a step.
Later proofs cite these and do not unfold the operations. -/

namespace Sys2Proof.Laws

open Sys2Proof Sys2Proof.Machine

/-- Everything a completion can answer: an exception of the checks, an exception of the data, or success. -/
theorem complete_cases {s : State} {check : Option Exc} {effect : Except Exc State}
    {o : Host.Outcome State Fault Refusal} (h : complete s check effect = o) :
    (∃ x, check = some x ∧ o = .next (s.takeException x)) ∨
    (∃ x, check = none ∧ effect = .error x ∧ o = .next (s.takeException x)) ∨
    (∃ t, check = none ∧ effect = .ok t ∧ o = .next t.succeed) := by
  subst h
  cases check with
  | some x => exact .inl ⟨x, rfl, rfl⟩
  | none =>
    cases effect with
    | error x => exact .inr (.inl ⟨x, rfl, rfl, rfl⟩)
    | ok t => exact .inr (.inr ⟨t, rfl, rfl, rfl⟩)

@[simp] theorem complete_some (s : State) (x : Exc) (e : Except Exc State) :
    complete s (some x) e = .next (s.takeException x) := rfl

@[simp] theorem complete_none_ok (s t : State) : complete s none (.ok t) = .next t.succeed := rfl

@[simp] theorem complete_none_error (s : State) (x : Exc) :
    complete s none (.error x) = .next (s.takeException x) := rfl

/-! ### The checks, as propositions -/

theorem inBounds_iff (a n : Nat) : inBounds a n = true ↔ a + n ≤ 4096 := by
  simp [inBounds, Config.bufSize]

theorem overlap_iff (a1 n1 a2 n2 : Nat) :
    overlap a1 n1 a2 n2 = true ↔ 0 < n1 ∧ 0 < n2 ∧ a1 < a2 + n2 ∧ a2 < a1 + n1 := by
  simp [overlap, and_assoc]

theorem sourceOk_iff (s : State) : s.sourceOk = true ↔ s.src.toNat + s.len.toNat ≤ 4096 := inBounds_iff _ _

theorem rangesOk_iff (s : State) (m : Nat) :
    s.rangesOk m = true ↔ s.src.toNat + s.len.toNat ≤ 4096 ∧ s.dst.toNat + m ≤ 4096 ∧
      ¬(0 < s.len.toNat ∧ 0 < m ∧ s.src.toNat < s.dst.toNat + m ∧ s.dst.toNat < s.src.toNat + s.len.toNat) := by
  rw [State.rangesOk, Bool.and_eq_true, Bool.and_eq_true, sourceOk_iff, inBounds_iff, Bool.not_eq_true',
    ← Bool.not_eq_true, overlap_iff, and_assoc]

theorem blockSizeOk_iff (s : State) : s.blockSizeOk = true ↔ 1 ≤ s.blksz.toNat ∧ s.blksz.toNat ≤ 255 := by
  simp [State.blockSizeOk]

/-! ### What each instruction's meaning is, as a completion -/

theorem exec_pkcs7Pad (s : State) : exec .pkcs7Pad s =
    complete s (checkPkcs7Pad s) (.ok (s.deliver (pkcs7Pad s.source s.blksz.toNat))) := rfl

theorem exec_pkcs7Unpad (s : State) : exec .pkcs7Unpad s =
    complete s (checkPkcs7Unpad s) (deliverUnpadded s (pkcs7Unpad s.source s.blksz.toNat)) := rfl

theorem exec_cbcEnc (s : State) : exec .cbcEnc s =
    complete s (checkCbcEnc s) (.ok (s.deliver (cbcEncrypt Config.encrypt s.source s.key.toBlock s.iv.toBlock))) := rfl

theorem exec_cbcDec (s : State) : exec .cbcDec s =
    complete s (checkCbcDec s)
      (deliverUnpadded s (cbcDecrypt Config.decrypt s.source s.key.toBlock s.iv.toBlock)) := rfl

theorem exec_ctrEnc (s : State) : exec .ctrEnc s =
    complete s (checkCtr s) (.ok (s.deliver (ctrXor Config.encrypt s.source s.key.toBlock s.nonce.toNat))) := rfl

theorem exec_ctrDec (s : State) : exec .ctrDec s =
    complete s (checkCtr s) (.ok (s.deliver (ctrXor Config.encrypt s.source s.key.toBlock s.nonce.toNat))) := rfl

theorem exec_ksInit (s : State) : exec .ksInit s =
    complete s none (.ok (s.setKeystream s.ksb (pairOfNat 0)).deliverNothing) := rfl

theorem exec_ksNext (s : State) : exec .ksNext s =
    complete s none (.ok (s.setKeystream
      (quadOfBlock (Config.encrypt (ctrBlock s.nonce.toNat s.cnt.toNat) s.key.toBlock))
      (pairOfNat (s.cnt.toNat + 1))).deliverNothing) := rfl

theorem exec_sha1Pad (s : State) : exec .sha1Pad s =
    complete s (checkSha1Pad s) (.ok (s.deliver (sha1PadBytes s.source s.len.toNat))) := rfl

theorem exec_sha1Padf (s : State) : exec .sha1Padf s =
    complete s (checkSha1Pad s) (.ok (s.deliver (sha1PadBytes s.source s.flen.toNat))) := rfl

theorem exec_sha1Upd (s : State) : exec .sha1Upd s =
    complete s (checkSha1Upd s)
      (.ok (s.setHash (sha1Fold s.hash s.source) (s.prior.toNat + s.len.toNat)).deliverNothing) := rfl

theorem exec_sha1Cmp (s : State) : exec .sha1Cmp s =
    complete s (checkSha1Cmp s) (.ok (absorbPadded s sha1Iv 0 (sha1PadBytes s.source s.len.toNat))) := rfl

theorem exec_sha1Cmpi (s : State) : exec .sha1Cmpi s =
    complete s (checkSha1Cmp s) (.ok (absorbPadded s s.hash s.prior.toNat
      (sha1PadBytes s.source ((s.prior.toNat + s.len.toNat) % 2 ^ 64)))) := rfl

/-! ### The engine and the step -/

@[simp] theorem engineTurn_idle {s : State} (run) (h : s.status.busy = false) : engineTurn run s = .next s := by
  simp [engineTurn, h]

theorem engineTurn_ok {s : State} (run) {i : Instr} (h : s.status.busy = true) (hd : decode s.cmd = .ok i) :
    engineTurn run s = run i s := by
  simp [engineTurn, h, hd]

theorem engineTurn_error {s : State} (run) {x : Exc} (h : s.status.busy = true) (hd : decode s.cmd = .error x) :
    engineTurn run s = .next (s.takeException x) := by
  simp [engineTurn, h, hd]

theorem step_nil {s : State} (h : s.agenda = []) : step s = engineTurn exec s := by
  simp [step, stepWith, h]

theorem step_cons {s : State} {e : Event} {rest : List Event} (h : s.agenda = e :: rest) :
    step s = handleEvent exec e { s with agenda := rest } := by
  simp [step, stepWith, h]

/-- Everything a step can be: the engine's turn, or one event of the agenda. -/
theorem step_cases (s : State) :
    (s.agenda = [] ∧ step s = engineTurn exec s) ∨
    (∃ rest, s.agenda = .engine :: rest ∧ step s = engineTurn exec { s with agenda := rest }) ∨
    (∃ t rest, s.agenda = .bus t :: rest ∧ step s = .next ({ s with agenda := rest }.transact t)) ∨
    (∃ rest, s.agenda = .rstAssert :: rest ∧ step s = .next (hardwareReset { s with agenda := rest })) ∨
    (∃ rest, s.agenda = .rstRelease :: rest ∧ step s = .next (releaseReset { s with agenda := rest })) ∨
    (∃ n rest, s.agenda = .wait n :: rest ∧ step s = .next ({ s with agenda := rest }.waitRead n)) := by
  cases h : s.agenda with
  | nil => exact .inl ⟨rfl, step_nil h⟩
  | cons e rest =>
    have hs := step_cons h
    cases e with
    | engine => exact .inr (.inl ⟨rest, rfl, hs⟩)
    | bus t => exact .inr (.inr (.inl ⟨t, rest, rfl, hs⟩))
    | rstAssert => exact .inr (.inr (.inr (.inl ⟨rest, rfl, hs⟩)))
    | rstRelease => exact .inr (.inr (.inr (.inr (.inl ⟨rest, rfl, hs⟩))))
    | wait n => exact .inr (.inr (.inr (.inr (.inr ⟨n, rest, rfl, hs⟩))))

end Sys2Proof.Laws
end

