-- ==== Sys2Proof/Laws/PerInstr.lean ====
section
/-! SUPPORT. A statement for every instruction, one lemma per constructor: its command word is its own (R104). -/

namespace Sys2Proof.Laws

open Sys2Proof

/-- The command word that the encoder gives an instruction decodes to it (R104, R105). -/
def DecodesFromItsWord.Statement (i : Instr) : Prop := decode (encode i) = .ok i

theorem DecodesFromItsWord.pkcs7Pad : DecodesFromItsWord.Statement .pkcs7Pad := rfl
theorem DecodesFromItsWord.pkcs7Unpad : DecodesFromItsWord.Statement .pkcs7Unpad := rfl
theorem DecodesFromItsWord.cbcEnc : DecodesFromItsWord.Statement .cbcEnc := rfl
theorem DecodesFromItsWord.cbcDec : DecodesFromItsWord.Statement .cbcDec := rfl
theorem DecodesFromItsWord.ctrEnc : DecodesFromItsWord.Statement .ctrEnc := rfl
theorem DecodesFromItsWord.ctrDec : DecodesFromItsWord.Statement .ctrDec := rfl
theorem DecodesFromItsWord.ksInit : DecodesFromItsWord.Statement .ksInit := rfl
theorem DecodesFromItsWord.ksNext : DecodesFromItsWord.Statement .ksNext := rfl
theorem DecodesFromItsWord.sha1Pad : DecodesFromItsWord.Statement .sha1Pad := rfl
theorem DecodesFromItsWord.sha1Padf : DecodesFromItsWord.Statement .sha1Padf := rfl
theorem DecodesFromItsWord.sha1Upd : DecodesFromItsWord.Statement .sha1Upd := rfl
theorem DecodesFromItsWord.sha1Cmp : DecodesFromItsWord.Statement .sha1Cmp := rfl
theorem DecodesFromItsWord.sha1Cmpi : DecodesFromItsWord.Statement .sha1Cmpi := rfl

end Sys2Proof.Laws
end

