-- ==== Sys2Proof/Machine/Assembler.lean ====
section
/-! DEFINITION. The host-side notation (30_encoding.md R108 to R110): what each line expands to, as transactions of the
host and loops `WAIT`, the agenda of a program for a schedule of the engine's turns, and what `RDBUF` returns.
A line expands whether or not it is well formed (log entry 15). -/

namespace Sys2Proof.Machine

/-- `WR reg, value` (R108). -/
def wrReg (r : Reg) (v : Word) : Transaction := .write r.offset 32 v

/-- `RD reg` (R108). -/
def rdReg (r : Reg) : Transaction := .read r.offset 32

/-- The command word a line submits (R108): `0x10 + 256*m` for `MODE.ENC m`, `0x11 + 256*m` for `MODE.DEC m`. -/
def commandWord : CommandLine → Word
  | .instr i => encode i
  | .modeEnc m => BitVec.ofNat 32 (0x10 + 256 * m)
  | .modeDec m => BitVec.ofNat 32 (0x11 + 256 * m)
  | .cmdw w => w

/-- A line that submits a command: `HostWrite(0x014, word)` (R108). -/
def submit (c : CommandLine) : Transaction := wrReg .cmd (commandWord c)

/-- The low and the high register of a 64-bit name (R109). -/
def regsOfName64 : Name64 → Reg × Reg
  | .nonce => (.nonceLo, .nonceHi)
  | .prior => (.priorLo, .priorHi)
  | .flen => (.flenLo, .flenHi)

/-- Register `j` of a 16-byte name (R109). -/
def regOfName16 : Name16 → Fin 4 → Reg
  | .key, j => .key j
  | .iv, j => .iv j

/-- The words of a byte sequence, four bytes a word, missing bytes written as `0x00` (R109). -/
def busWords (bs : List Byte) : List Word :=
  (pieces 4 ((bs.length + 3) / 4) bs).map wordLe

/-- The word writes of a list of words to the window from buffer address `a` on (R109). -/
def windowWrites (a : Nat) : List Word → List Transaction
  | [] => []
  | w :: ws => .write (windowBase + a) 32 w :: windowWrites (a + 4) ws

/-- `k` word reads of the window from buffer address `a` on (R109). -/
def windowReads (a : Nat) : Nat → List Transaction
  | 0 => []
  | k + 1 => .read (windowBase + a) 32 :: windowReads (a + 4) k

/-- What a line expands to (R108, R109). -/
def lineOps : Line → List HostOp
  | .wr r v => [.bus (wrReg r v)]
  | .rd r => [.bus (rdReg r)]
  | .command c => [.bus (submit c)]
  | .wait => [.wait]
  | .wr64 n v =>
    [.bus (wrReg (regsOfName64 n).1 (BitVec.ofNat 32 v)), .bus (wrReg (regsOfName64 n).2 (BitVec.ofNat 32 (v / 2 ^ 32)))]
  | .wrBytes n bs =>
    (List.finRange 4).map (fun j => .bus (wrReg (regOfName16 n j) (wordLe ((bs.drop (4 * j.val)).take 4))))
  | .wrBuf a bs => (windowWrites a (busWords bs)).map .bus
  | .rdBuf a n => (windowReads a ((n + 3) / 4)).map .bus
  | .run c => [.bus (submit c), .wait]

/-- The events of one operation: the engine's turn before it if the slot says so, and the operation. -/
def slotEvents (p : Slot) : HostOp → List Event
  | .bus t => (if p.engineFirst then [.engine] else []) ++ [.bus t]
  | .wait => (if p.engineFirst then [.engine] else []) ++ [.wait p.polls]

/-- The operations in order, each with its slot; where the slots run out, no turn of the engine before an operation
and no further read of a `WAIT`. -/
def scheduled (slots : List Slot) : List HostOp → List Event
  | [] => []
  | op :: ops => slotEvents (slots.headD ⟨false, 0⟩) op ++ scheduled slots.tail ops

/-- A program: its lines from top to bottom (R110). Where the completions fall among its transactions is open (R281,
U5), so it is an argument: `slots` says for each transaction whether the engine has its turn before it, and for each
`WAIT` of its own how many reads find the block busy before the completion falls. Every placing of the completions
between transactions is some `slots`. DESIGN CHOICE of form (log entry 10). -/
def programEvents (slots : List Slot) (ls : List Line) : List Event := scheduled slots (ls.flatMap lineOps)

/-- The value read in a step, where the step's event was a read that was answered `OK(v)` (R72). -/
def valueRead : List Event → Option BusResponse → List Word
  | .bus (.read _ _) :: _, some (.okRead v) => [v]
  | _, _ => []

/-- The values that the host's reads among the next `k` steps return, in order (R72). -/
def valuesRead : Nat → State → List Word
  | 0, _ => []
  | k + 1, s =>
    match step s with
    | .next t => valueRead s.agenda t.response ++ valuesRead k t
    | .fault _ => []
    | .refused _ => []

/-- The result of `RDBUF a, n` (R109), from the words its reads returned: the first `n` bytes, unpacked as in R76. -/
def rdBufResult (n : Nat) (words : List Word) : List Byte := (words.flatMap bytesOfWord).take n

end Sys2Proof.Machine
end

