-- ==== Sys2Proof/Safety.lean ====
section
/-! DEFINITION. The terms the statements use: the invariant of the machine, what it is for a command to complete in error
and to have written an output, when the ranges of a command are usable, what it is to be padded, and runs of one
instruction. Each is written out from the spec's rules, not from the model's operations. -/

namespace Sys2Proof.Machine

/-- What every step keeps: `BUF` in canonical form; `ERRCODE` one of the codes of R230, and not 0 while `ERR` is 1
(R236); while a command is pending `DONE`, `ERR` and `ERRCODE` are 0 (R235); while the reset input is asserted every
register holds its reset value (R270); the draw that fills `BUF` is a past one (the model's own counter). -/
def State.Inv (s : State) : Prop :=
  s.buf.wf ∧
  s.status.errcode.toNat ≤ 6 ∧
  (s.status.err = true → s.status.errcode ≠ 0#4) ∧
  (s.status.busy = true → s.status.done = false ∧ s.status.err = false ∧ s.status.errcode = 0#4) ∧
  (s.rstAsserted = true → s.resetRegisters = s) ∧
  s.bufDraw < s.draws

/-- A safe step: it answers a next state, neither a fault nor a refusal. -/
def AnswersNext (o : Host.Outcome State Fault Refusal) : Prop := ∃ t, o = .next t

/-- `t` is `s` after completion in error with the given code: the five assignments of R236 and nothing else. -/
def CompletedInError (s t : State) (code : BitVec 4) : Prop :=
  t = { s with
    outlen := 0#32
    status := { s.status with busy := false, done := true, err := true, errcode := code } }

/-- `STATUS` after completion with success (R235). -/
def okStatus (st : Status) : Status :=
  { st with busy := false, done := true, err := false, errcode := 0#4 }

/-- The bytes `out` stand in `BUF` at `DST`, every other byte of `BUF` reads as before, and `OUTLEN` is their number
(R28, R78). -/
def WroteOutput (s t : State) (out : List Byte) : Prop :=
  (∀ (i : Nat) (h : i < out.length), t.bufByte (s.dst.toNat + i) = out[i]) ∧
  (∀ a, a < s.dst.toNat ∨ s.dst.toNat + out.length ≤ a → t.bufByte a = s.bufByte a) ∧
  t.outlen.toNat = out.length

/-- The source range lies in `BUF` (R79). -/
abbrev SourceUsable (s : State) : Prop := s.src.toNat + s.len.toNat ≤ 4096

/-- The three range checks of R79 pass for an output of at most `m` bytes. -/
abbrev RangesUsable (s : State) (m : Nat) : Prop :=
  s.src.toNat + s.len.toNat ≤ 4096 ∧ s.dst.toNat + m ≤ 4096 ∧
  ¬(0 < s.len.toNat ∧ 0 < m ∧ s.src.toNat < s.dst.toNat + m ∧ s.dst.toNat < s.src.toNat + s.len.toNat)

/-- `BLKSZ` is legal (R29). -/
abbrev BlockSizeLegal (s : State) : Prop := 1 ≤ s.blksz.toNat ∧ s.blksz.toNat ≤ 255

/-- The sequence ends in `V` bytes, each of value `V`, with `V` at least 1 (R131, R134). -/
abbrev PaddedBy (s : List Byte) (V : Nat) : Prop :=
  1 ≤ V ∧ V ≤ s.length ∧ ∀ i, i < s.length → s.length - V ≤ i → s[i]? = some (BitVec.ofNat 8 V)

/-- The sequence is validly padded for block size `B` (R134 (b)). -/
def ValidlyPadded (s : List Byte) (B : Nat) : Prop := ∃ V, V ≤ B ∧ PaddedBy s V

/-- Block `i` of a byte sequence (R7, `blocks16`). -/
def blockAt (s : List Byte) (i : Nat) : Block := blockOfBytes ((s.drop (16 * i)).take 16)

/-- The block before block `i` in a CBC chain: the IV for the first (R152, R153). -/
def blockBefore (IV0 : Block) (s : List Byte) (i : Nat) : Block := if i = 0 then IV0 else blockAt s (i - 1)

/-- The access is one that R74 lists as answered `BusError`. -/
abbrev IllFormedAccess (off width : Nat) : Prop :=
  width ≠ 32 ∨ off % 4 ≠ 0 ∨ 0x1FFF < off ∨ off = 0x02C ∨ off = 0x084 ∨ (0x098 ≤ off ∧ off ≤ 0xFFC)

/-- The read-only registers of R244's table. -/
def ReadOnlyRow (t : Target) : Prop :=
  t = .reg .id ∨ t = .reg .cap ∨ t = .reg .outlen ∨ t = .reg .cntLo ∨ t = .reg .cntHi ∨ ∃ j, t = .reg (.ksb j)

/-- The last row of R244's table: the targets whose writes are discarded while busy. -/
def DiscardedRow (t : Target) : Prop :=
  t = .reg .cmd ∨ t = .reg .src ∨ t = .reg .len ∨ t = .reg .dst ∨ t = .reg .blksz ∨
  (∃ j, t = .reg (.key j)) ∨ (∃ j, t = .reg (.iv j)) ∨ t = .reg .nonceLo ∨ t = .reg .nonceHi ∨
  (∃ j, t = .reg (.shaH j)) ∨ t = .reg .priorLo ∨ t = .reg .priorHi ∨ t = .reg .flenLo ∨ t = .reg .flenHi ∨
  ∃ a, t = .window a

/-- The targets whose reads R275 leaves unspecified while busy. -/
def UnspecifiedRow (t : Target) : Prop :=
  t = .reg .outlen ∨ t = .reg .cntLo ∨ t = .reg .cntHi ∨ (∃ j, t = .reg (.ksb j)) ∨ (∃ j, t = .reg (.shaH j)) ∨
  t = .reg .priorLo ∨ t = .reg .priorHi ∨ ∃ a, t = .window a

/-- The registers of access class `RW` that hold all 32 bits and do nothing else when written (R20, R41). -/
def PlainRegister (r : Reg) : Prop :=
  r = .src ∨ r = .len ∨ r = .dst ∨ r = .blksz ∨ (∃ j, r = .key j) ∨ (∃ j, r = .iv j) ∨ r = .nonceLo ∨
  r = .nonceHi ∨ (∃ j, r = .shaH j) ∨ r = .priorLo ∨ r = .priorHi ∨ r = .flenLo ∨ r = .flenHi

/-- R20's map: the registers whose reads are exact at all times (R72, R275), each offset with what a read there returns. -/
def exactReads (s : State) : List (Nat × Word) :=
  [(0x000, 0x504D4231#32), (0x004, 0x00001000#32), (0x008, 0x00000000#32), (0x00C, s.ien.toWord),
    (0x010, s.status.toWord), (0x014, s.cmd), (0x018, s.src), (0x01C, s.len), (0x020, s.dst), (0x028, s.blksz)] ++
  [(0x030, s.key.x0), (0x034, s.key.x1), (0x038, s.key.x2), (0x03C, s.key.x3)] ++
  [(0x040, s.iv.x0), (0x044, s.iv.x1), (0x048, s.iv.x2), (0x04C, s.iv.x3)] ++
  [(0x050, s.nonce.lo), (0x054, s.nonce.hi), (0x090, s.flen.lo), (0x094, s.flen.hi)]

/-- R20's map: the registers whose reads are exact while idle only (R72, R275), each offset with what a read there
returns. -/
def resultReads (s : State) : List (Nat × Word) :=
  [(0x024, s.outlen), (0x058, s.cnt.lo), (0x05C, s.cnt.hi)] ++
  [(0x060, s.ksb.x0), (0x064, s.ksb.x1), (0x068, s.ksb.x2), (0x06C, s.ksb.x3)] ++
  [(0x070, s.hash.h0), (0x074, s.hash.h1), (0x078, s.hash.h2), (0x07C, s.hash.h3), (0x080, s.hash.h4)] ++
  [(0x088, s.prior.lo), (0x08C, s.prior.hi)]

/-- R20's map: the plain `RW` registers, each offset with the state that a write of `v` there leaves (R41). -/
def plainWrites (s : State) (v : Word) : List (Nat × State) :=
  [(0x018, { s with src := v }), (0x01C, { s with len := v }), (0x020, { s with dst := v }),
    (0x028, { s with blksz := v })] ++
  [(0x030, { s with key := { s.key with x0 := v } }), (0x034, { s with key := { s.key with x1 := v } }),
    (0x038, { s with key := { s.key with x2 := v } }), (0x03C, { s with key := { s.key with x3 := v } })] ++
  [(0x040, { s with iv := { s.iv with x0 := v } }), (0x044, { s with iv := { s.iv with x1 := v } }),
    (0x048, { s with iv := { s.iv with x2 := v } }), (0x04C, { s with iv := { s.iv with x3 := v } })] ++
  [(0x050, { s with nonce := { s.nonce with lo := v } }), (0x054, { s with nonce := { s.nonce with hi := v } })] ++
  [(0x070, { s with hash := { s.hash with h0 := v } }), (0x074, { s with hash := { s.hash with h1 := v } }),
    (0x078, { s with hash := { s.hash with h2 := v } }), (0x07C, { s with hash := { s.hash with h3 := v } }),
    (0x080, { s with hash := { s.hash with h4 := v } })] ++
  [(0x088, { s with prior := { s.prior with lo := v } }), (0x08C, { s with prior := { s.prior with hi := v } }),
    (0x090, { s with flen := { s.flen with lo := v } }), (0x094, { s with flen := { s.flen with hi := v } })]

/-- `n` executions of one instruction in a row. -/
def execTimes (i : Instr) : Nat → State → Host.Outcome State Fault Refusal
  | 0, s => .next s
  | n + 1, s =>
    match exec i s with
    | .next t => execTimes i n t
    | .fault r => .fault r
    | .refused r => .refused r

/-- `n` steps of the machine. -/
def stepTimes : Nat → State → Host.Outcome State Fault Refusal
  | 0, s => .next s
  | n + 1, s =>
    match step s with
    | .next t => stepTimes n t
    | .fault r => .fault r
    | .refused r => .refused r

end Sys2Proof.Machine
end

