-- ==== Sys2Proof/Certificates/Slice0/Obligations.lean ====
section
/-! DEFINITION. The statements for the provers. Each docstring names the rule or rules of spec/ that the statement
formalises or rests on; a statement that rests on a choice of the model names its log entry. -/

open Sys2Proof Sys2Proof.Machine

/-! ## Command words -/

/-- R104: the thirteen command words, and that each instruction has exactly one. -/
def Obligations.EachInstructionHasExactlyOneCommandWord : Prop :=
  (encode .pkcs7Pad = 0x00000001#32 ∧ encode .pkcs7Unpad = 0x00000002#32 ∧ encode .cbcEnc = 0x00000110#32 ∧
    encode .cbcDec = 0x00000111#32 ∧ encode .ctrEnc = 0x00000210#32 ∧ encode .ctrDec = 0x00000211#32 ∧
    encode .ksInit = 0x00000018#32 ∧ encode .ksNext = 0x00000019#32 ∧ encode .sha1Pad = 0x00000020#32 ∧
    encode .sha1Padf = 0x00001020#32 ∧ encode .sha1Upd = 0x00000021#32 ∧ encode .sha1Cmp = 0x00000022#32 ∧
    encode .sha1Cmpi = 0x00002022#32) ∧
  ∀ (w : Word) (i : Instr), decode w = .ok i ↔ w = encode i

/-- R105, R106, R151: the words that raise `IllegalMode` are the 28 with `OP` 0x10 or 0x11 and `MODE` 0 or 3 to 15;
a word that decodes to no instruction raises one of the two decode exceptions. -/
def Obligations.IllegalModeIsRaisedByExactlyTwentyEightWords : Prop :=
  (∀ w : Word, decode w = .error .illegalMode ↔
    ∃ m : Nat, m ≤ 15 ∧ m ≠ 1 ∧ m ≠ 2 ∧
      (w = BitVec.ofNat 32 (0x10 + 256 * m) ∨ w = BitVec.ofNat 32 (0x11 + 256 * m))) ∧
  ∀ (w : Word) (x : Exc), decode w = .error x → x = .illegalMode ∨ x = .illegalCommand

/-- R101, R104, R105: a few words written out from the encoding of R101 decode as the tables say (a sanity check). -/
def Obligations.WrittenOutWordsDecode : Prop :=
  decode 0b00000000000000000000000000000001#32 = .ok .pkcs7Pad ∧
  decode 0b00000000000000000000000100010001#32 = .ok .cbcDec ∧
  decode 0b00000000000000000000001000010000#32 = .ok .ctrEnc ∧
  decode 0b00000000000000000000000000011001#32 = .ok .ksNext ∧
  decode 0b00000000000000000001000000100000#32 = .ok .sha1Padf ∧
  decode 0b00000000000000000010000000100010#32 = .ok .sha1Cmpi ∧
  decode 0b00000000000000000001011100010000#32 = .error .illegalCommand ∧
  decode 0b00000000000000000000011100010000#32 = .error .illegalMode

/-! ## The life of a command -/

/-- R234: acceptance of a host write to `CMD` (offset 0x014) while idle, whatever the word is; nothing else of the
block changes (the model records the bus response and takes the transaction off its agenda). -/
def Obligations.CommandWriteIsAcceptedWhileIdle : Prop :=
  ∀ (s : State) (w : Word) (rest : List Event),
    s.agenda = .bus (.write 0x014 32 w) :: rest → s.rstAsserted = false → s.status.busy = false →
    step s = .next { s with
      agenda := rest
      response := some .okWrite
      cmd := w
      status := { s.status with busy := true, done := false, err := false, errcode := 0#4 } }

/-- R235: the engine's step runs the instruction that the word in `CMD` decodes to. What the model adds around `exec`:
an `engine` entry of the agenda is taken off it, and with an empty agenda the engine moves (log entry 2). -/
def Obligations.StepRunsTheDecodedInstruction : Prop :=
  ∀ (s : State) (i : Instr), s.status.busy = true → decode s.cmd = .ok i →
    (s.agenda = [] → step s = exec i s) ∧
    (∀ rest, s.agenda = .engine :: rest → step s = exec i { s with agenda := rest })

/-- R105, R230, R236: a pending word that decodes to no instruction completes in error with code 2 (`IllegalMode`)
or 3 (`IllegalCommand`). -/
def Obligations.StepTakesTheDecodeException : Prop :=
  ∀ (s : State), s.status.busy = true → (s.agenda = [] ∨ s.agenda.head? = some .engine) →
    (decode s.cmd = .error .illegalMode →
      ∃ t, step s = .next t ∧ CompletedInError { s with agenda := s.agenda.tail } t 2#4) ∧
    (decode s.cmd = .error .illegalCommand →
      ∃ t, step s = .next t ∧ CompletedInError { s with agenda := s.agenda.tail } t 3#4)

/-- R8: the engine does nothing when no command is pending (with an empty agenda the machine waits: log entry 2). -/
def Obligations.EngineDoesNothingWhileIdle : Prop :=
  ∀ (s : State), s.status.busy = false →
    (s.agenda = [] → step s = .next s) ∧
    (∀ rest, s.agenda = .engine :: rest → step s = .next { s with agenda := rest })

/-- R239 and the absence of any halting behaviour: no step stops, and no instruction stops (log entry 8). -/
def Obligations.NoStepAndNoInstructionStops : Prop :=
  (∀ s : State, AnswersNext (step s)) ∧ ∀ (i : Instr) (s : State), AnswersNext (exec i s)

/-- R42, R235, R236, R270: the invariant holds after reset. -/
def Obligations.ResetStateSatisfiesTheInvariant : Prop := State.reset.Inv

/-- R39, R78, R79, R230, R235, R236, R270: every step keeps the invariant, from every state that has it. -/
def Obligations.EveryStepKeepsTheInvariant : Prop :=
  ∀ s t : State, s.Inv → step s = .next t → t.Inv

/-- R237: a command that completes in error has changed nothing but `OUTLEN` and `STATUS`: the state after it is the
state at acceptance with the five assignments of R236, with one of the codes of R230. -/
def Obligations.ErrorsArePrecise : Prop :=
  ∀ s t : State, s.status.busy = true → (s.agenda = [] ∨ s.agenda.head? = some .engine) →
    step s = .next t → t.status.err = true →
    ∃ code : BitVec 4, 1 ≤ code.toNat ∧ code.toNat ≤ 6 ∧
      CompletedInError { s with agenda := s.agenda.tail } t code

/-- R235, R236 and R27, R29, R31 to R33, R38 ("no command writes it"): every instruction completes from every state,
leaves the flags of a completion, and changes no register but the result registers. -/
def Obligations.EveryInstructionCompletesAndKeepsTheOperandRegisters : Prop :=
  ∀ (i : Instr) (s : State), ∃ t, exec i s = .next t ∧
    t.status.busy = false ∧ t.status.done = true ∧ t.status.wrbusy = s.status.wrbusy ∧
    (t.status.err = true ↔ t.status.errcode ≠ 0#4) ∧ t.status.errcode.toNat ≤ 6 ∧
    (t.status.err = true → t.outlen = 0#32) ∧
    t = { s with
      status := t.status
      outlen := t.outlen
      cnt := t.cnt
      ksb := t.ksb
      hash := t.hash
      prior := t.prior
      buf := t.buf }

/-- R34 to R37, R39, R277: which instructions write which result register, and that a byte of `BUF` changes only in
the destination range of `OUTLEN` bytes at `DST`. -/
def Obligations.ResultRegistersAreWrittenOnlyByTheirInstructions : Prop :=
  ∀ (i : Instr) (s t : State), exec i s = .next t →
    (i ≠ .sha1Upd → i ≠ .sha1Cmp → i ≠ .sha1Cmpi → t.hash = s.hash ∧ t.prior = s.prior) ∧
    (i ≠ .ksInit → i ≠ .ksNext → t.cnt = s.cnt) ∧
    (i ≠ .ksNext → t.ksb = s.ksb) ∧
    (i = .ksInit ∨ i = .ksNext ∨ i = .sha1Upd → ∀ a, t.bufByte a = s.bufByte a) ∧
    (∀ a, a < s.dst.toNat ∨ s.dst.toNat + t.outlen.toNat ≤ a → t.bufByte a = s.bufByte a)

/-! ## PKCS7 unit -/

/-- R130: the padded sequence and its consequences. -/
def Obligations.PadAppendsACountedTail : Prop :=
  ∀ (s : List Byte) (B N : Nat), 1 ≤ B → B ≤ 255 → N = B - s.length % B →
    pkcs7Pad s B = s ++ List.replicate N (BitVec.ofNat 8 N) ∧ 1 ≤ N ∧ N ≤ B ∧
    (pkcs7Pad s B).length = s.length + N ∧ (pkcs7Pad s B).length % B = 0 ∧
    s.length < (pkcs7Pad s B).length ∧ (pkcs7Pad s B).length ≤ s.length + B ∧
    (pkcs7Pad s B).getLast? = some (BitVec.ofNat 8 N)

/-- R131, R134 (b): unpadding succeeds exactly on a valid padding, and then strips exactly it. -/
def Obligations.UnpadSucceedsExactlyOnValidPadding : Prop :=
  ∀ (s out : List Byte) (B : Nat), 1 ≤ B → B ≤ 255 →
    (pkcs7Unpad s B = some out ↔ ∃ V, V ≤ B ∧ PaddedBy s V ∧ out = s.take (s.length - V))

/-- R134 (a): unpadding undoes padding, for every sequence and every legal block size. -/
def Obligations.UnpadUndoesPad : Prop :=
  ∀ (s : List Byte) (B : Nat), 1 ≤ B → B ≤ 255 → pkcs7Unpad (pkcs7Pad s B) B = some s

/-- R132: `PKCS7.PAD`, its command word, its checks in order and its effect, with its frame. -/
def Obligations.Pkcs7PadFollowsItsRule : Prop :=
  encode .pkcs7Pad = 0x00000001#32 ∧
  ∀ s : State, ∀ N : Nat, N = s.blksz.toNat - s.len.toNat % s.blksz.toNat →
    (¬BlockSizeLegal s → ∃ t, exec .pkcs7Pad s = .next t ∧ CompletedInError s t 6#4) ∧
    (BlockSizeLegal s → ¬RangesUsable s (s.len.toNat + N) →
      ∃ t, exec .pkcs7Pad s = .next t ∧ CompletedInError s t 5#4) ∧
    (BlockSizeLegal s → RangesUsable s (s.len.toNat + N) →
      ∃ t, exec .pkcs7Pad s = .next t ∧
        t = { s with buf := t.buf, outlen := t.outlen, status := okStatus s.status } ∧
        WroteOutput s t (s.source ++ List.replicate N (BitVec.ofNat 8 N)))

/-- R133: `PKCS7.UNPAD`, its command word, its checks in order and its effect, with its frame. -/
def Obligations.Pkcs7UnpadFollowsItsRule : Prop :=
  encode .pkcs7Unpad = 0x00000002#32 ∧
  ∀ s : State,
    (¬BlockSizeLegal s → ∃ t, exec .pkcs7Unpad s = .next t ∧ CompletedInError s t 6#4) ∧
    (BlockSizeLegal s → s.len.toNat = 0 → ∃ t, exec .pkcs7Unpad s = .next t ∧ CompletedInError s t 4#4) ∧
    (BlockSizeLegal s → 1 ≤ s.len.toNat → ¬RangesUsable s s.len.toNat →
      ∃ t, exec .pkcs7Unpad s = .next t ∧ CompletedInError s t 5#4) ∧
    (BlockSizeLegal s → 1 ≤ s.len.toNat → RangesUsable s s.len.toNat → ¬ValidlyPadded s.source s.blksz.toNat →
      ∃ t, exec .pkcs7Unpad s = .next t ∧ CompletedInError s t 1#4) ∧
    (∀ V, BlockSizeLegal s → 1 ≤ s.len.toNat → RangesUsable s s.len.toNat → V ≤ s.blksz.toNat →
      PaddedBy s.source V →
      ∃ t, exec .pkcs7Unpad s = .next t ∧
        t = { s with buf := t.buf, outlen := t.outlen, status := okStatus s.status } ∧
        WroteOutput s t (s.source.take (s.len.toNat - V)))

/-! ## MODE unit: CBC -/

/-- R9: the primitive's inverse law. -/
def Obligations.PrimitiveDecryptUndoesEncrypt : Prop :=
  ∀ b k : Block, Config.decrypt (Config.encrypt b k) k = b

/-- R152: block `i` of the ciphertext is `E(xor(B[i], C[i-1]), K)`, for every primitive. -/
def Obligations.CbcEncryptChainsEachBlockToTheOneBefore : Prop :=
  ∀ (E : Block → Block → Block) (P : List Byte) (K IV0 : Block),
    (cbcEncrypt E P K IV0).length = P.length + 16 - P.length % 16 ∧
    (cbcEncrypt E P K IV0).length = (pkcs7Pad P 16).length ∧
    16 ≤ (cbcEncrypt E P K IV0).length ∧ (cbcEncrypt E P K IV0).length % 16 = 0 ∧
    ∀ i, i < (pkcs7Pad P 16).length / 16 →
      blockAt (cbcEncrypt E P K IV0) i =
        E (blockAt (pkcs7Pad P 16) i ^^^ blockBefore IV0 (cbcEncrypt E P K IV0) i) K

/-- R153: block `i` before unpadding is `xor(D(C[i], K), C[i-1])`, and the result is its unpadding. -/
def Obligations.CbcDecryptUnchainsEachBlockFromTheOneBefore : Prop :=
  ∀ (D : Block → Block → Block) (Cs : List Byte) (K IV0 : Block), 0 < Cs.length → Cs.length % 16 = 0 →
    (cbcDecryptRaw D Cs K IV0).length = Cs.length ∧
    (∀ i, i < Cs.length / 16 →
      blockAt (cbcDecryptRaw D Cs K IV0) i = D (blockAt Cs i) K ^^^ blockBefore IV0 Cs i) ∧
    cbcDecrypt D Cs K IV0 = pkcs7Unpad (cbcDecryptRaw D Cs K IV0) 16

/-- R156 (a): decryption undoes encryption, for every primitive with the inverse law of R9. -/
def Obligations.CbcDecryptUndoesCbcEncrypt : Prop :=
  ∀ (E D : Block → Block → Block), (∀ b k, D (E b k) k = b) →
    ∀ (P : List Byte) (K IV0 : Block), cbcDecrypt D (cbcEncrypt E P K IV0) K IV0 = some P

/-- R156 (b): block `i` depends only on `C[i]`, `C[i-1]` and the key, and a difference in `C[i-1]` (or in the IV, for
the first block) appears in it bit for bit. -/
def Obligations.CbcDecryptCarriesADifferenceOfThePrecedingBlock : Prop :=
  ∀ (D : Block → Block → Block) (Cs Cs' : List Byte) (K IV0 IV0' δ : Block) (i : Nat),
    Cs.length % 16 = 0 → Cs'.length % 16 = 0 → i < Cs.length / 16 → i < Cs'.length / 16 →
    blockAt Cs' i = blockAt Cs i → blockBefore IV0' Cs' i = blockBefore IV0 Cs i ^^^ δ →
    blockAt (cbcDecryptRaw D Cs' K IV0') i = blockAt (cbcDecryptRaw D Cs K IV0) i ^^^ δ

/-- R154: `CBC.ENC`, its command word, its check and its effect, with its frame (`IV` is not advanced). -/
def Obligations.CbcEncFollowsItsRule : Prop :=
  encode .cbcEnc = 0x00000110#32 ∧
  ∀ s : State, ∀ m : Nat, m = s.len.toNat + 16 - s.len.toNat % 16 →
    (¬RangesUsable s m → ∃ t, exec .cbcEnc s = .next t ∧ CompletedInError s t 5#4) ∧
    (RangesUsable s m →
      ∃ t, exec .cbcEnc s = .next t ∧
        t = { s with buf := t.buf, outlen := t.outlen, status := okStatus s.status } ∧
        WroteOutput s t (cbcEncrypt Config.encrypt s.source s.key.toBlock s.iv.toBlock) ∧
        t.outlen.toNat = m)

/-- R155: `CBC.DEC`, its command word, its checks in order and its effect, with its frame. -/
def Obligations.CbcDecFollowsItsRule : Prop :=
  encode .cbcDec = 0x00000111#32 ∧
  ∀ (s : State) (PP : List Byte),
    PP = cbcDecryptRaw Config.decrypt s.source s.key.toBlock s.iv.toBlock →
    (¬(16 ≤ s.len.toNat ∧ s.len.toNat % 16 = 0) →
      ∃ t, exec .cbcDec s = .next t ∧ CompletedInError s t 4#4) ∧
    (16 ≤ s.len.toNat → s.len.toNat % 16 = 0 → ¬RangesUsable s s.len.toNat →
      ∃ t, exec .cbcDec s = .next t ∧ CompletedInError s t 5#4) ∧
    (16 ≤ s.len.toNat → s.len.toNat % 16 = 0 → RangesUsable s s.len.toNat → ¬ValidlyPadded PP 16 →
      ∃ t, exec .cbcDec s = .next t ∧ CompletedInError s t 1#4) ∧
    (∀ V, 16 ≤ s.len.toNat → s.len.toNat % 16 = 0 → RangesUsable s s.len.toNat → V ≤ 16 → PaddedBy PP V →
      ∃ t, exec .cbcDec s = .next t ∧
        t = { s with buf := t.buf, outlen := t.outlen, status := okStatus s.status } ∧
        WroteOutput s t (PP.take (s.len.toNat - V)))

/-- R154, R155, R156 (a): a `CBC.DEC` command run on the output of a `CBC.ENC` command, with the same key and IV, writes
the source of the `CBC.ENC` command back. -/
def Obligations.CbcDecCommandUndoesCbcEncCommand : Prop :=
  ∀ (s t : State) (d : Word), RangesUsable s (s.len.toNat + 16 - s.len.toNat % 16) → exec .cbcEnc s = .next t →
    RangesUsable { t with src := s.dst, len := t.outlen, dst := d } t.outlen.toNat →
    ∃ v, exec .cbcDec { t with src := s.dst, len := t.outlen, dst := d } = .next v ∧
      v.status.err = false ∧ v.outlen = s.len ∧ v.memRead d.toNat s.len.toNat = s.source

/-! ## MODE unit: CTR -/

/-- R170: the counter block is the nonce in bytes 0 to 7 and the counter in bytes 8 to 15, each least significant
byte first. -/
def Obligations.CounterBlockIsNonceThenCounterLittleEndian : Prop :=
  ∀ n j : Nat, n < 2 ^ 64 → j < 2 ^ 64 →
    bytesOfBlock (ctrBlock n j) = le64 n ++ le64 j ∧
    ∀ i, i < 8 →
      (bytesOfBlock (ctrBlock n j))[i]? = some (BitVec.ofNat 8 (n / 256 ^ i)) ∧
      (bytesOfBlock (ctrBlock n j))[8 + i]? = some (BitVec.ofNat 8 (j / 256 ^ i))

/-- R171: byte `p` of the keystream is byte `p mod 16` of block `p div 16`. -/
def Obligations.KeystreamByteIsAByteOfItsBlock : Prop :=
  ∀ (E : Block → Block → Block) (K : Block) (n m : Nat),
    (∀ j, ksBlock E K n j = E (ctrBlock n (j % 2 ^ 64)) K) ∧
    (keystream E K n m).length = m ∧
    ∀ p, p < m → (keystream E K n m)[p]? = (bytesOfBlock (ksBlock E K n (p / 16)))[p % 16]?

/-- R176 (a), (b), (c): the CTR operation is its own inverse, its prefixes depend on prefixes only, and two messages
under one key and nonce differ as their ciphertexts do. -/
def Obligations.CtrXorIsAnInvolutionWithPrefixAndReuseLaws : Prop :=
  ∀ (E : Block → Block → Block) (K : Block) (n : Nat),
    (∀ s, ctrXor E (ctrXor E s K n) K n = s) ∧
    (∀ s m, (ctrXor E s K n).take m = ctrXor E (s.take m) K n) ∧
    (∀ s1 s2, xorBytes (ctrXor E s1 K n) (ctrXor E s2 K n) = xorBytes s1 s2)

/-- R174, R175: `CTR.ENC` and `CTR.DEC`, their command words, their check and their one effect, with its frame (`CNT`
and `KSB` are not written). -/
def Obligations.CtrEncAndCtrDecFollowTheirRule : Prop :=
  encode .ctrEnc = 0x00000210#32 ∧ encode .ctrDec = 0x00000211#32 ∧
  ∀ (i : Instr) (s : State), i = .ctrEnc ∨ i = .ctrDec →
    (¬RangesUsable s s.len.toNat → ∃ t, exec i s = .next t ∧ CompletedInError s t 5#4) ∧
    (RangesUsable s s.len.toNat →
      ∃ t, exec i s = .next t ∧
        t = { s with buf := t.buf, outlen := s.len, status := okStatus s.status } ∧
        WroteOutput s t
          (xorBytes s.source (keystream Config.encrypt s.key.toBlock s.nonce.toNat s.len.toNat)))

/-- R172: `KS.INIT`, from every state. -/
def Obligations.KsInitFollowsItsRule : Prop :=
  encode .ksInit = 0x00000018#32 ∧
  ∀ s : State, ∃ t, exec .ksInit s = .next t ∧ t.cnt.toNat = 0 ∧
    t = { s with cnt := t.cnt, outlen := 0#32, status := okStatus s.status }

/-- R173: `KS.NEXT`, from every state: the keystream block of the live key, nonce and counter, and the counter plus 1
modulo `2^64`. -/
def Obligations.KsNextFollowsItsRule : Prop :=
  encode .ksNext = 0x00000019#32 ∧
  ∀ s : State, ∃ t, exec .ksNext s = .next t ∧
    t.ksb.bytes = bytesOfBlock (Config.encrypt (ctrBlock s.nonce.toNat s.cnt.toNat) s.key.toBlock) ∧
    t.cnt.toNat = (s.cnt.toNat + 1) % 2 ^ 64 ∧
    t = { s with ksb := t.ksb, cnt := t.cnt, outlen := 0#32, status := okStatus s.status }

/-- R176 (d): the `j`-th `KS.NEXT` after a `KS.INIT`, counting from 0, leaves keystream block `j` in `KSB`. -/
def Obligations.KsNextProducesTheKeystreamInOrder : Prop :=
  ∀ (s : State) (j : Nat), ∃ t0 t, exec .ksInit s = .next t0 ∧ execTimes .ksNext (j + 1) t0 = .next t ∧
    t.ksb.bytes = bytesOfBlock (ksBlock Config.encrypt s.key.toBlock s.nonce.toNat j) ∧
    t.cnt.toNat = (j + 1) % 2 ^ 64 ∧ t.key = s.key ∧ t.nonce = s.nonce

/-! ## SHA1 unit -/

/-- R191: the padded message, its fill count and its length. -/
def Obligations.Sha1PadIsAWholeNumberOfChunks : Prop :=
  ∀ (m : List Byte) (L : Nat), ∃ k : Nat,
    (k : Int) = (55 - (m.length : Int)) % 64 ∧
    sha1PadBytes m L = m ++ [0x80#8] ++ List.replicate k 0x00#8 ++ be64 ((8 * L) % 2 ^ 64) ∧
    (sha1PadBytes m L).length = m.length + 1 + k + 8 ∧ (sha1PadBytes m L).length % 64 = 0 ∧
    m.length + 9 ≤ (sha1PadBytes m L).length ∧ (sha1PadBytes m L).length ≤ m.length + 72

/-- R192, the message schedule: its first sixteen words are the chunk's, big-endian, and each later word follows the
recurrence. -/
def Obligations.Sha1ScheduleFollowsItsRecurrence : Prop :=
  ∀ c : List Byte, c.length = 64 →
    (schedule c).length = 80 ∧
    (∀ t, t < 16 → (schedule c)[t]? = some (wordBe ((c.drop (4 * t)).take 4))) ∧
    (∀ t, 16 ≤ t → t < 80 → (schedule c).getD t 0#32 =
      rotl ((schedule c).getD (t - 3) 0#32 ^^^ (schedule c).getD (t - 8) 0#32 ^^^
        (schedule c).getD (t - 14) 0#32 ^^^ (schedule c).getD (t - 16) 0#32) 1)

/-- R192, whole: the schedule, the eighty rounds with their functions and constants, and the final addition, for some
sequences `W` of schedule words and `v` of working variables (`h0..h4` standing for `a, b, c_, d, e`). -/
def Obligations.Sha1ChunkRunsItsEightyRounds : Prop :=
  ∀ (h : HashState) (c : List Byte), c.length = 64 → ∃ (W : Nat → Word) (v : Nat → HashState),
    (∀ t, t < 16 → W t = wordBe ((c.drop (4 * t)).take 4)) ∧
    (∀ t, 16 ≤ t → t < 80 → W t = rotl (W (t - 3) ^^^ W (t - 8) ^^^ W (t - 14) ^^^ W (t - 16)) 1) ∧
    v 0 = h ∧
    (∀ t, t < 80 → ∃ f K : Word,
      (t ≤ 19 → f = ((v t).h1 &&& (v t).h2) ||| (~~~(v t).h1 &&& (v t).h3) ∧ K = 0x5A827999#32) ∧
      (20 ≤ t → t ≤ 39 → f = (v t).h1 ^^^ (v t).h2 ^^^ (v t).h3 ∧ K = 0x6ED9EBA1#32) ∧
      (40 ≤ t → t ≤ 59 → f = ((v t).h1 &&& (v t).h2) ||| ((v t).h1 &&& (v t).h3) ||| ((v t).h2 &&& (v t).h3) ∧
        K = 0x8F1BBCDC#32) ∧
      (60 ≤ t → f = (v t).h1 ^^^ (v t).h2 ^^^ (v t).h3 ∧ K = 0xCA62C1D6#32) ∧
      v (t + 1) = ⟨rotl (v t).h0 5 + f + (v t).h4 + K + W t, (v t).h0, rotl (v t).h1 30, (v t).h2, (v t).h3⟩) ∧
    sha1Chunk h c = ⟨h.h0 + (v 80).h0, h.h1 + (v 80).h1, h.h2 + (v 80).h2, h.h3 + (v 80).h3, h.h4 + (v 80).h4⟩

/-- R193: the fold absorbs the chunks in order, and `sha1_compress` is the fold of the padded message. -/
def Obligations.Sha1FoldAbsorbsTheChunksInOrder : Prop :=
  ∀ (h : HashState),
    sha1Fold h [] = h ∧
    (∀ x : List Byte, x ≠ [] → x.length % 64 = 0 →
      sha1Fold h x = sha1Fold (sha1Chunk h (x.take 64)) (x.drop 64)) ∧
    (∀ (m : List Byte) (p : Nat),
      sha1Compress m h p = sha1Fold h (sha1PadBytes m ((p + m.length) % 2 ^ 64)))

/-- R200 (a): hashing `x ‖ y` is absorbing `x` and hashing `y` from there. -/
def Obligations.Sha1CompressSplitsAtAChunkBoundary : Prop :=
  ∀ (x y : List Byte) (h : HashState) (p : Nat), x.length % 64 = 0 → p + x.length + y.length < 2 ^ 64 →
    sha1Compress (x ++ y) h p = sha1Compress y (sha1Fold h x) (p + x.length)

/-- R200 (b): length extension. With the glue `g` of `m`, the hash of `m ‖ g ‖ y` is reached from the hash of `m`. -/
def Obligations.Sha1LengthExtension : Prop :=
  ∀ m g y : List Byte, g = (sha1PadBytes m m.length).drop m.length →
    sha1Compress (m ++ g ++ y) sha1Iv 0 = sha1Compress y (sha1Compress m sha1Iv 0) (m.length + g.length)

/-- R199: the digest is 20 bytes, and the state of a digest is the words decoded from it, big-endian. -/
def Obligations.DigestBytesDecodeToTheHashState : Prop :=
  ∀ h : HashState, digest h = be32 h.h0 ++ be32 h.h1 ++ be32 h.h2 ++ be32 h.h3 ++ be32 h.h4 ∧
    (digest h).length = 20 ∧
    ∀ j : Fin 5, wordBe (((digest h).drop (4 * j.val)).take 4) = h.get j

/-- R194: `SHA1.PAD`, its command word, its check and its effect, with its frame. -/
def Obligations.Sha1PadFollowsItsRule : Prop :=
  encode .sha1Pad = 0x00000020#32 ∧
  ∀ (s : State) (k : Nat), (k : Int) = (55 - (s.len.toNat : Int)) % 64 →
    (¬RangesUsable s (s.len.toNat + 1 + k + 8) → ∃ t, exec .sha1Pad s = .next t ∧ CompletedInError s t 5#4) ∧
    (RangesUsable s (s.len.toNat + 1 + k + 8) →
      ∃ t, exec .sha1Pad s = .next t ∧
        t = { s with buf := t.buf, outlen := t.outlen, status := okStatus s.status } ∧
        WroteOutput s t (sha1PadBytes s.source s.len.toNat) ∧ t.outlen.toNat = s.len.toNat + 9 + k)

/-- R195: `SHA1.PADF`: the same, the length field taken from `FLEN`. -/
def Obligations.Sha1PadfFollowsItsRule : Prop :=
  encode .sha1Padf = 0x00001020#32 ∧
  ∀ (s : State) (k : Nat), (k : Int) = (55 - (s.len.toNat : Int)) % 64 →
    (¬RangesUsable s (s.len.toNat + 1 + k + 8) → ∃ t, exec .sha1Padf s = .next t ∧ CompletedInError s t 5#4) ∧
    (RangesUsable s (s.len.toNat + 1 + k + 8) →
      ∃ t, exec .sha1Padf s = .next t ∧
        t = { s with buf := t.buf, outlen := t.outlen, status := okStatus s.status } ∧
        WroteOutput s t (sha1PadBytes s.source s.flen.toNat) ∧ t.outlen.toNat = s.len.toNat + 9 + k)

/-- R196: `SHA1.UPD`, its command word, its checks in order and its effect, with its frame. -/
def Obligations.Sha1UpdFollowsItsRule : Prop :=
  encode .sha1Upd = 0x00000021#32 ∧
  ∀ s : State,
    (s.len.toNat % 64 ≠ 0 → ∃ t, exec .sha1Upd s = .next t ∧ CompletedInError s t 4#4) ∧
    (s.len.toNat % 64 = 0 → ¬SourceUsable s → ∃ t, exec .sha1Upd s = .next t ∧ CompletedInError s t 5#4) ∧
    (s.len.toNat % 64 = 0 → SourceUsable s →
      ∃ t, exec .sha1Upd s = .next t ∧
        t = { s with
          hash := sha1Fold s.hash s.source
          prior := t.prior
          outlen := 0#32
          status := okStatus s.status } ∧
        t.prior.toNat = (s.prior.toNat + s.len.toNat) % 2 ^ 64)

/-- R197: `SHA1.CMP`, its command word, its check and its effect, with its frame. -/
def Obligations.Sha1CmpFollowsItsRule : Prop :=
  encode .sha1Cmp = 0x00000022#32 ∧
  ∀ s : State,
    (¬RangesUsable s 20 → ∃ t, exec .sha1Cmp s = .next t ∧ CompletedInError s t 5#4) ∧
    (RangesUsable s 20 →
      ∃ t, exec .sha1Cmp s = .next t ∧
        t = { s with
          buf := t.buf
          outlen := 20#32
          hash := sha1Compress s.source sha1Iv 0
          prior := t.prior
          status := okStatus s.status } ∧
        WroteOutput s t (digest (sha1Compress s.source sha1Iv 0)) ∧
        t.prior.toNat = (sha1PadBytes s.source s.len.toNat).length)

/-- R198: `SHA1.CMPI`, its command word, its check and its effect, with its frame. -/
def Obligations.Sha1CmpiFollowsItsRule : Prop :=
  encode .sha1Cmpi = 0x00002022#32 ∧
  ∀ s : State,
    (¬RangesUsable s 20 → ∃ t, exec .sha1Cmpi s = .next t ∧ CompletedInError s t 5#4) ∧
    (RangesUsable s 20 →
      ∃ t, exec .sha1Cmpi s = .next t ∧
        t = { s with
          buf := t.buf
          outlen := 20#32
          hash := sha1Compress s.source s.hash s.prior.toNat
          prior := t.prior
          status := okStatus s.status } ∧
        WroteOutput s t (digest (sha1Compress s.source s.hash s.prior.toNat)) ∧
        t.prior.toNat =
          (s.prior.toNat + (sha1PadBytes s.source ((s.prior.toNat + s.len.toNat) % 2 ^ 64)).length) % 2 ^ 64)

/-- R197, R198, R200 (b): a `SHA1.CMPI` command after a `SHA1.CMP` command, on any new source, leaves the hash of the
first source, its glue and the new source together. -/
def Obligations.Sha1CmpiContinuesSha1CmpAsLengthExtension : Prop :=
  ∀ (s t u : State) (g : List Byte), RangesUsable s 20 → exec .sha1Cmp s = .next t →
    g = (sha1PadBytes s.source s.len.toNat).drop s.len.toNat →
    u.hash = t.hash → u.prior = t.prior → RangesUsable u 20 →
    ∃ v, exec .sha1Cmpi u = .next v ∧ v.status.err = false ∧
      v.hash = sha1Compress (s.source ++ g ++ u.source) sha1Iv 0 ∧
      v.memRead u.dst.toNat 20 = digest (sha1Compress (s.source ++ g ++ u.source) sha1Iv 0)

/-! ## Registers, bus and interrupt -/

/-- R30, R84: how a 16-byte sequence lies in its four registers, and as a block on the primitive port. -/
def Obligations.ByteArrayRegistersPackLittleEndian : Prop :=
  (∀ (q : Quad) (i : Nat) (h : i / 4 < 4), q.bytes[i]? =
    some ((q.get ⟨i / 4, h⟩).extractLsb' (8 * (i % 4)) 8)) ∧
  (∀ q : Quad, bytesOfBlock q.toBlock = q.bytes) ∧
  (∀ b : Block, (quadOfBlock b).bytes = bytesOfBlock b)

/-- R24, R25, U8: the words that `STATUS` and `IEN` read as, bit by bit; the unassigned bits read 0. -/
def Obligations.StatusAndIenReadTheirFields : Prop :=
  ∀ (st : Status) (e : Ien) (n : Nat),
    st.toWord.getLsbD 0 = st.busy ∧ st.toWord.getLsbD 1 = st.done ∧ st.toWord.getLsbD 2 = st.err ∧
    st.toWord.getLsbD 3 = st.wrbusy ∧ st.toWord.extractLsb' 8 4 = st.errcode ∧
    (4 ≤ n ∧ n ≤ 7 ∨ 12 ≤ n → st.toWord.getLsbD n = false) ∧
    e.toWord.getLsbD 0 = e.doneIe ∧ e.toWord.getLsbD 1 = e.errIe ∧ (2 ≤ n → e.toWord.getLsbD n = false)

/-- R240: the interrupt output is a function of the words that `STATUS` and `IEN` read as, and is low after reset. -/
def Obligations.IrqIsAFunctionOfStatusAndIen : Prop :=
  (∀ s : State, s.irq =
    (s.status.toWord.getLsbD 1 && s.ien.toWord.getLsbD 0 || s.status.toWord.getLsbD 2 && s.ien.toWord.getLsbD 1)) ∧
  State.reset.irq = false

/-- R74: `BusError` is the answer to exactly the ill-formed accesses, and then no state changes. -/
def Obligations.BusErrorAnswersExactlyTheIllFormedAccesses : Prop :=
  ∀ (s : State) (off width : Nat) (v : Word) (rest : List Event), s.rstAsserted = false →
    (s.agenda = .bus (.read off width) :: rest →
      (IllFormedAccess off width →
        step s = .next { s with agenda := rest, response := some .busError }) ∧
      (¬IllFormedAccess off width → ∃ t x, step s = .next t ∧ t.response = some (.okRead x))) ∧
    (s.agenda = .bus (.write off width v) :: rest →
      (IllFormedAccess off width →
        step s = .next { s with agenda := rest, response := some .busError }) ∧
      (¬IllFormedAccess off width → ∃ t, step s = .next t ∧ t.response = some .okWrite))

/-- R72: no read changes the block (the model's agenda, response and count of draws apart); while idle it draws
nothing. -/
def Obligations.HostReadsChangeNoState : Prop :=
  ∀ (s t : State) (off width : Nat) (rest : List Event),
    s.agenda = .bus (.read off width) :: rest → step s = .next t →
    t = { s with agenda := rest, response := t.response, draws := t.draws } ∧
    (s.status.busy = false → t.draws = s.draws)

/-- R72, R275: what a well-formed read returns: the register's value, but while busy a fresh free word for the targets
of R275 (log entry 4; it holds for every value of the draw). The first two clauses write R20's map out: at each offset
the field of State that the instructions use. -/
def Obligations.HostReadReturnsTheTargetOrAFreeWord : Prop :=
  (∀ (s : State) (off : Nat) (w : Word) (rest : List Event),
    s.agenda = .bus (.read off 32) :: rest → s.rstAsserted = false → (off, w) ∈ exactReads s →
    step s = .next { s with agenda := rest, response := some (.okRead w) }) ∧
  (∀ (s : State) (off : Nat) (w : Word) (rest : List Event),
    s.agenda = .bus (.read off 32) :: rest → s.rstAsserted = false → (off, w) ∈ resultReads s →
    (s.status.busy = false → step s = .next { s with agenda := rest, response := some (.okRead w) }) ∧
    (s.status.busy = true →
      step s = .next { s with
        agenda := rest
        draws := s.draws + 1
        response := some (.okRead (Config.freeWord s.draws)) })) ∧
  ∀ (s : State) (off : Nat) (tg : Target) (rest : List Event),
    s.agenda = .bus (.read off 32) :: rest → s.rstAsserted = false → Target.ofOffset off = some tg →
    (s.status.busy = true → UnspecifiedRow tg →
      step s = .next { s with
        agenda := rest
        draws := s.draws + 1
        response := some (.okRead (Config.freeWord s.draws)) }) ∧
    (s.status.busy = false ∨ ¬UnspecifiedRow tg →
      step s = .next { s with agenda := rest, response := some (.okRead (s.readTarget tg)) })

/-- R76: the `BUF` window while idle: a read packs four bytes, a write stores four, the lowest address in bits 7:0, and
touches no other byte. R78, R107: `MemRead` is the bytes of `BUF` one by one, and the source of a command is the `LEN`
bytes from `SRC` on. R109: what `RDBUF` returns while idle is the bytes of `BUF`. -/
def Obligations.WindowReadsAndWritesFourBytes : Prop :=
  (∀ (s : State) (a n : Nat),
    (s.memRead a n).length = n ∧ ∀ i, i < n → (s.memRead a n)[i]? = some (s.bufByte (a + i))) ∧
  (∀ s : State, s.source.length = s.len.toNat ∧
    ∀ i, i < s.len.toNat → s.source[i]? = some (s.bufByte (s.src.toNat + i))) ∧
  (∀ (s : State) (a n : Nat) (rest : List Event),
    a % 4 = 0 → a + n ≤ 4096 → s.rstAsserted = false → s.status.busy = false →
    s.agenda = programEvents [] [.rdBuf a n] ++ rest →
    rdBufResult n (valuesRead ((n + 3) / 4) s) = s.memRead a n ∧
    ∃ t, stepTimes ((n + 3) / 4) s = .next t ∧ t.agenda = rest) ∧
  ∀ (s : State) (a : Nat) (v : Word) (rest : List Event),
    a % 4 = 0 → a + 4 ≤ 4096 → s.rstAsserted = false → s.status.busy = false →
    (s.agenda = .bus (.read (0x1000 + a) 32) :: rest →
      ∃ x, step s = .next { s with agenda := rest, response := some (.okRead x) } ∧
        x.toNat = (s.bufByte a).toNat + 2 ^ 8 * (s.bufByte (a + 1)).toNat +
          2 ^ 16 * (s.bufByte (a + 2)).toNat + 2 ^ 24 * (s.bufByte (a + 3)).toNat) ∧
    (s.agenda = .bus (.write (0x1000 + a) 32 v) :: rest →
      ∃ t, step s = .next t ∧ t = { s with agenda := rest, response := some .okWrite, buf := t.buf } ∧
        (∀ i, i < 4 → (t.bufByte (a + i)).toNat = v.toNat / 2 ^ (8 * i) % 256) ∧
        (∀ b, b < a ∨ a + 4 ≤ b → t.bufByte b = s.bufByte b))

/-- R41: a plain `RW` register, written while idle, reads back all 32 bits, and no other register and no byte of `BUF`
changes. The first clause writes R20's map out: at each offset the field of State that the write replaces. -/
def Obligations.PlainRegistersReadBackWhatWasWritten : Prop :=
  (∀ (s u : State) (off : Nat) (v : Word) (rest : List Event),
    s.agenda = .bus (.write off 32 v) :: rest → s.rstAsserted = false → s.status.busy = false →
    (off, u) ∈ plainWrites s v →
    step s = .next { u with agenda := rest, response := some .okWrite }) ∧
  ∀ (s : State) (r : Reg) (v : Word) (rest : List Event),
    s.agenda = .bus (.write r.offset 32 v) :: rest → s.rstAsserted = false → s.status.busy = false →
    PlainRegister r →
    ∃ t, step s = .next t ∧ t.agenda = rest ∧ t.response = some .okWrite ∧ t.readReg r = v ∧
      (∀ r', r' ≠ r → t.readReg r' = s.readReg r') ∧ (∀ a, t.bufByte a = s.bufByte a)

/-- R25, R238 (a): a write to `STATUS` at any time clears `DONE`, `ERR`, `WRBUSY` where it has a 1, and touches
neither `BUSY` nor `ERRCODE` nor anything else. -/
def Obligations.StatusWriteClearsTheWrittenFlags : Prop :=
  ∀ (s : State) (v : Word) (rest : List Event),
    s.agenda = .bus (.write 0x010 32 v) :: rest → s.rstAsserted = false →
    step s = .next { s with
      agenda := rest
      response := some .okWrite
      status := { s.status with
        done := s.status.done && !v.getLsbD 1
        err := s.status.err && !v.getLsbD 2
        wrbusy := s.status.wrbusy && !v.getLsbD 3 } }

/-- R244: the write filter, row by row of its table; while idle no write sets `WRBUSY`. A write to `IEN` (0x00C, R20,
R24) is performed at any time, busy or idle. -/
def Obligations.WriteFilterWhileBusy : Prop :=
  ∀ (s : State) (off : Nat) (v : Word) (tg : Target) (rest : List Event),
    s.agenda = .bus (.write off 32 v) :: rest → s.rstAsserted = false → Target.ofOffset off = some tg →
    (ReadOnlyRow tg → step s = .next { s with agenda := rest, response := some .okWrite }) ∧
    (s.status.busy = true → DiscardedRow tg →
      step s = .next { s with
        agenda := rest, response := some .okWrite, status := { s.status with wrbusy := true } }) ∧
    (off = 0x00C →
      step s = .next { s with
        agenda := rest, response := some .okWrite, ien := ⟨v.getLsbD 0, v.getLsbD 1⟩ }) ∧
    (s.status.busy = true → tg = .reg .status →
      step s = .next { s with
        agenda := rest
        response := some .okWrite
        status := { s.status with
          done := s.status.done && !v.getLsbD 1
          err := s.status.err && !v.getLsbD 2
          wrbusy := s.status.wrbusy && !v.getLsbD 3 } }) ∧
    (s.status.busy = true → tg = .reg .ctrl → v.getLsbD 0 = true →
      ∃ t, step s = .next t ∧ t.response = some .okWrite ∧ t.status = ⟨false, false, false, false, 0#4⟩) ∧
    (s.status.busy = true → tg = .reg .ctrl → v.getLsbD 0 = false →
      step s = .next { s with agenda := rest, response := some .okWrite }) ∧
    (s.status.busy = false → ∃ t, step s = .next t ∧ (t.status.wrbusy = true → s.status.wrbusy = true))

/-! ## Reset -/

/-- R42, R21, R22: what every register reads after hardware reset. -/
def Obligations.RegistersReadTheirResetValues : Prop :=
  State.reset.readReg .id = 0x504D4231#32 ∧ State.reset.readReg .cap = 0x00001000#32 ∧
  ∀ r : Reg, r ≠ .id → r ≠ .cap → State.reset.readReg r = 0#32

/-- R23, R271, R272: a write of bit 0 = 1 to `CTRL`, at any time: every register reads its reset value and `BUF` keeps
its bytes, but for the destination range of a pending command whose checks passed; a write of bit 0 = 0 does
nothing. -/
def Obligations.SoftResetClearsRegistersAndKeepsBuf : Prop :=
  ∀ (s : State) (v : Word) (rest : List Event),
    s.agenda = .bus (.write 0x008 32 v) :: rest → s.rstAsserted = false →
    (v.getLsbD 0 = false → step s = .next { s with agenda := rest, response := some .okWrite }) ∧
    (v.getLsbD 0 = true →
      ∃ t, step s = .next t ∧ t.agenda = rest ∧ t.response = some .okWrite ∧ t.rstAsserted = false ∧
        (∀ r, t.readReg r = State.reset.readReg r) ∧
        (s.status.busy = false → ∀ a, t.bufByte a = s.bufByte a) ∧
        (s.status.busy = true → (∀ i, decode s.cmd = .ok i → operandCheck i s ≠ none) →
          ∀ a, t.bufByte a = s.bufByte a) ∧
        (∀ i, s.status.busy = true → decode s.cmd = .ok i → operandCheck i s = none →
          ∀ a, a < s.dst.toNat ∨ s.dst.toNat + maxOut i s ≤ a → t.bufByte a = s.bufByte a))

/-- R270: the reset input. Asserted: every register reads its reset value, a pending command is gone, no byte of `BUF` is
known; while it is asserted a transaction is not answered and changes nothing; at its release the registers hold
their reset values. The form of the two edges is the model's (log entry 7). -/
def Obligations.HardwareResetClearsRegistersAndForgetsBuf : Prop :=
  ∀ (s : State) (rest : List Event),
    (s.agenda = .rstAssert :: rest →
      ∃ t, step s = .next t ∧ t.agenda = rest ∧ t.rstAsserted = true ∧ t.buf = [] ∧ t.bufDraw = s.draws ∧
        s.draws < t.draws ∧ ∀ r, t.readReg r = State.reset.readReg r) ∧
    (∀ tr, s.agenda = .bus tr :: rest → s.rstAsserted = true →
      step s = .next { s with agenda := rest, response := none }) ∧
    (s.agenda = .rstRelease :: rest →
      ∃ t, step s = .next t ∧ t.agenda = rest ∧ t.rstAsserted = false ∧
        (∀ r, t.readReg r = State.reset.readReg r) ∧ ∀ a, t.bufByte a = s.bufByte a)

/-! ## The host-side notation -/

/-- R109, R235, R236: `WAIT`. While idle, one read of `STATUS` ends it, and changes nothing of the block. While busy, where
the completion falls after `n` further reads (the schedule's choice, log entry 10; for every `n`), the reads before it
find `BUSY = 1` and the loop goes on, and the first read after it finds `BUSY = 0`, which ends the loop. -/
def Obligations.WaitEndsWithBusyClear : Prop :=
  ∀ (s : State) (n : Nat) (rest : List Event), s.rstAsserted = false →
    s.agenda = programEvents [⟨false, n⟩] [.wait] ++ rest →
    (s.status.busy = false →
      step s = .next { s with agenda := rest, response := some (.okRead s.status.toWord) }) ∧
    (s.status.busy = true →
      (∀ k, k ≤ n → ∃ t x, stepTimes (k + 1) s = .next t ∧ t.response = some (.okRead x) ∧
        x.getLsbD 0 = true ∧ t = { s with agenda := t.agenda, response := t.response }) ∧
      ∃ t x, stepTimes (n + 3) s = .next t ∧ t.agenda = rest ∧ t.response = some (.okRead x) ∧
        x.getLsbD 0 = false ∧ t.status.busy = false ∧ t.status.done = true)
end

