-- ==== Sys2Proof/Laws/Decode.lean ====
section
/-! SUPPORT. The fields of a command word are the whole word, and the offset of a register names it. -/

namespace Sys2Proof.Laws

open Sys2Proof Sys2Proof.Machine

/-- A command word is its five fields (R101). -/
theorem word_eq_fields (w : Word) :
    w = rsvField w ++ BitVec.ofBool (injField w) ++ BitVec.ofBool (flField w) ++ modeField w ++ opField w := by
  apply BitVec.eq_of_getLsbD_eq
  intro i hi
  simp only [BitVec.getLsbD_append, rsvField, injField, flField, modeField, opField,
    BitVec.getLsbD_extractLsb', BitVec.getLsbD_ofBool]
  rcases Nat.lt_or_ge i 8 with h | h
  · simp [h]
  rcases Nat.lt_or_ge i 12 with h2 | h2
  · simp [show ¬i < 8 by omega, show i - 8 < 4 by omega, show 8 + (i - 8) = i by omega]
  rcases Nat.lt_or_ge i 14 with h3 | h3
  · obtain rfl | rfl : i = 12 ∨ i = 13 := by omega
    · simp
    · simp
  · simp [show ¬i < 8 by omega, show ¬i - 8 < 4 by omega, show ¬i - 8 - 4 = 0 by omega,
      show ¬i - 8 - 4 - 1 = 0 by omega, show 14 + (i - 8 - 4 - 1 - 1) = i by omega]
    omega

/-- The offset of a register names that register (R20, R71). -/
theorem ofOffset_offset (r : Reg) : Target.ofOffset r.offset = some (.reg r) := by
  cases r <;> first | rfl | (rename_i j; revert j; decide)

/-- A window target lies in the buffer (R71). -/
theorem window_inside {off a : Nat} (h : Target.ofOffset off = some (.window a)) : a + 4 ≤ Config.bufSize := by
  unfold Target.ofOffset windowBase at h
  split at h
  · cases h
  split at h
  · split at h
    · simp only [Option.some.injEq, Target.window.injEq] at h
      have hb : Config.bufSize = 4096 := rfl
      omega
    · cases h
  · simp at h

/-- A well-formed write to a target while the reset input is not asserted. -/
theorem transact_write {s : State} (hr : s.rstAsserted = false) {off : Nat} {t : Target} (v : Word)
    (h : Target.ofOffset off = some t) :
    s.transact (.write off 32 v) = (s.writeTarget v t).respond (some .okWrite) := by
  simp [State.transact, hr, State.hostWrite, accessTarget, h]

/-- A well-formed read of a target while the reset input is not asserted. -/
theorem transact_read {s : State} (hr : s.rstAsserted = false) {off : Nat} {t : Target}
    (h : Target.ofOffset off = some t) : s.transact (.read off 32) = s.hostReadTarget t := by
  simp [State.transact, hr, State.hostRead, accessTarget, h]

end Sys2Proof.Laws
end

