-- ==== Sys2Proof/Laws/Lengths.lean ====
section
/-! SUPPORT. How long the outputs of the functions are. -/

namespace Sys2Proof.Laws

open Sys2Proof Sys2Proof.Machine

theorem pkcs7Unpad_length_le {s out : List Byte} {B : Nat} (h : pkcs7Unpad s B = some out) :
    out.length ≤ s.length := by
  unfold pkcs7Unpad at h
  split at h
  · cases h
  split at h
  · cases h
  split at h
  · cases h; simp
  · cases h

@[simp] theorem cbcChain_length (E : Block → Block → Block) (K : Block) :
    ∀ (bs : List Block) (c : Block), (cbcChain E K c bs).length = bs.length := by
  intro bs
  induction bs with
  | nil => intro c; rfl
  | cons b bs ih => intro c; simp [cbcChain, ih]

@[simp] theorem cbcUnchain_length (D : Block → Block → Block) (K : Block) :
    ∀ (bs : List Block) (c : Block), (cbcUnchain D K c bs).length = bs.length := by
  intro bs
  induction bs with
  | nil => intro c; rfl
  | cons b bs ih => intro c; simp [cbcUnchain, ih]

@[simp] theorem bytesOfBlocks_length (bs : List Block) : (bytesOfBlocks bs).length = 16 * bs.length := by
  induction bs with
  | nil => rfl
  | cons b bs ih =>
    simp only [bytesOfBlocks, List.flatMap_cons, List.length_append] at *
    simp [ih]; omega

@[simp] theorem blocks16_length (s : List Byte) : (blocks16 s).length = s.length / 16 := by
  simp [blocks16]

@[simp] theorem be64_length (n : Nat) : (be64 n).length = 8 := by simp [be64]

@[simp] theorem digest_length (h : HashState) : (digest h).length = 20 := by simp [digest, be32]

end Sys2Proof.Laws
end

