-- ==== Sys2Proof/Laws/Wait.lean ====
section
/-! SUPPORT. What one turn of the host's loop `WAIT` can do (30_encoding.md R109): the block is as before, the value of
`STATUS` is answered, and the loop goes on exactly where it has `BUSY = 1`. -/

namespace Sys2Proof.Laws

open Sys2Proof Sys2Proof.Machine

/-- Going on with the loop changes at most the agenda. -/
theorem keepWaiting_frame (s : State) (n : Nat) : s.keepWaiting n = { s with agenda := (s.keepWaiting n).agenda } := by
  unfold State.keepWaiting
  split
  · split <;> rfl
  all_goals rfl

@[simp] theorem waitAgain_zero (rest : List Event) : waitAgain 0 rest = .engine :: .wait 0 :: rest := rfl

@[simp] theorem waitAgain_succ (k : Nat) (rest : List Event) : waitAgain (k + 1) rest = .wait k :: rest := rfl

/-- Bit 0 of the word that `STATUS` reads as is `BUSY` (R25). -/
theorem status_busy_bit (st : Status) : st.toWord.getLsbD 0 = st.busy := by
  rw [Status.toWord, BitVec.getLsbD_append]
  simp

/-- A turn of `WAIT` while the reset input is not asserted: `STATUS` is read, and the loop goes on while busy. -/
theorem waitRead_eq {s : State} (hr : s.rstAsserted = false) (n : Nat) :
    s.waitRead n = { s with
      response := some (.okRead s.status.toWord)
      agenda := if s.status.busy then waitAgain n s.agenda else s.agenda } := by
  have ht : s.transact (.read Reg.status.offset 32) = s.respond (some (.okRead s.status.toWord)) := by
    rw [transact_read hr (ofOffset_offset .status)]
    simp [State.hostReadTarget, unspecifiedWhileBusy, State.readTarget, State.readReg]
  rw [State.waitRead, ht]
  simp only [State.keepWaiting, State.respond, status_busy_bit]
  split <;> rfl

/-- A turn of `WAIT` while the reset input is asserted: the read is not answered, and the loop ends (log entry 7). -/
theorem waitRead_asserted {s : State} (hr : s.rstAsserted = true) (n : Nat) :
    s.waitRead n = { s with response := none } := by
  simp [State.waitRead, State.transact, hr, State.respond, State.keepWaiting]

end Sys2Proof.Laws
end

