-- ==== Sys2Proof/WellFormed.lean ====
section
/-! DEFINITION. What the syntax of Sys2Proof/Syntax.lean must satisfy. A bus access is well formed when it is
32 bits wide, word-aligned and mapped (20_memory.md R72 to R74; the "well-formed host write" of 60_exceptions.md
R244); an ill-formed one is answered `BusError`. A line of the host-side notation is well formed under the side
conditions of 30_encoding.md R108 and R109. An instruction has no operand (R107), so all are well formed. -/

namespace Sys2Proof

/-- No instruction has an operand field that could hold an inadmissible value (R107). -/
def Instr.wellFormed : Instr → Bool
  | .pkcs7Pad | .pkcs7Unpad | .cbcEnc | .cbcDec | .ctrEnc | .ctrDec | .ksInit | .ksNext => true
  | .sha1Pad | .sha1Padf | .sha1Upd | .sha1Cmp | .sha1Cmpi => true

/-- A bus access is 32 bits wide, and its offset is word-aligned and mapped (R72, R73). -/
def Transaction.wellFormed : Transaction → Bool
  | .read off width => width == 32 && (Target.ofOffset off).isSome
  | .write off width _ => width == 32 && (Target.ofOffset off).isSome

/-- The mode selector of `MODE.ENC m` and `MODE.DEC m` is 0 to 15 (R108). -/
def CommandLine.wellFormed : CommandLine → Bool
  | .instr _ => true
  | .modeEnc m => decide (m ≤ 15)
  | .modeDec m => decide (m ≤ 15)
  | .cmdw _ => true

/-- The side conditions of R108 and R109: a 64-bit value, sixteen bytes, a word-aligned buffer address. -/
def Line.wellFormed : Line → Bool
  | .wr _ _ => true
  | .rd _ => true
  | .command c => c.wellFormed
  | .wait => true
  | .wr64 _ v => decide (v < 2 ^ 64)
  | .wrBytes _ bs => bs.length == 16
  | .wrBuf a _ => a % 4 == 0
  | .rdBuf a _ => a % 4 == 0
  | .run c => c.wellFormed

end Sys2Proof
end

