-- ==== Sys2Proof/Tests/Slice0.lean ====
section
/-! SUPPORT. Tests of the model, each against a vector of 95_test_vectors.md or an example of a rule of spec/, and for
every statement with hypotheses a witness that meets them. -/

namespace Sys2Proof.Tests

open Sys2Proof Sys2Proof.Machine Sys2Proof.Laws

/-! ## Helpers -/

/-- The state an outcome answers. -/
def nextOf (o : Host.Outcome State Fault Refusal) : Option State :=
  match o with
  | .next t => some t
  | .fault _ => none
  | .refused _ => none

/-- A state with `src` at 0 and the given source bytes, `LEN` their number, and `DST`. -/
def withSource (bytes : List Byte) (dst : Word) : State :=
  { State.reset with
    buf := Memory.writeBytes [] 0 bytes
    len := BitVec.ofNat 32 bytes.length
    dst := dst }

/-- The bytes at an address, `OUTLEN`, `ERR` and `ERRCODE` after an outcome. -/
def result (o : Host.Outcome State Fault Refusal) (a n : Nat) : Option (List Byte × Nat × Bool × Nat) :=
  (nextOf o).map fun t => (t.memRead a n, t.outlen.toNat, t.status.err, t.status.errcode.toNat)

/-- `OUTLEN`, `ERR` and `ERRCODE` after an outcome. -/
def flags (o : Host.Outcome State Fault Refusal) : Option (Nat × Bool × Nat) :=
  (nextOf o).map fun t => (t.outlen.toNat, t.status.err, t.status.errcode.toNat)

/-- Bytes from numbers. -/
def bytes (l : List Nat) : List Byte := l.map (BitVec.ofNat 8)

/-- `E_toy` (95_test_vectors.md section 1). -/
def toyEncrypt (b k : Block) : Block :=
  blockOfBytes ((List.range 16).map fun i =>
    ((bytesOfBlock b).getD ((i + 1) % 16) 0#8 ^^^ (bytesOfBlock k).getD i 0#8) + BitVec.ofNat 8 (i + 1))

/-- `D_toy` (95_test_vectors.md section 1), by its output byte `j = (i+1) mod 16`. -/
def toyDecrypt (c k : Block) : Block :=
  blockOfBytes ((List.range 16).map fun j =>
    ((bytesOfBlock c).getD ((j + 15) % 16) 0#8 - BitVec.ofNat 8 ((j + 15) % 16 + 1)) ^^^
      (bytesOfBlock k).getD ((j + 15) % 16) 0#8)

/-- `K1` as register writes (95_test_vectors.md section 1). -/
def k1 : Quad := ⟨0x4C4C4559#32, 0x5320574F#32, 0x414D4255#32, 0x454E4952#32⟩

/-- `IV1` as register writes (95_test_vectors.md section 1). -/
def iv1 : Quad := ⟨0x03020100#32, 0x07060504#32, 0x0B0A0908#32, 0x0F0E0D0C#32⟩

/-! ## Well-formedness: one ill-formed term for each check -/

theorem test_wf_narrow_access_refused : (Transaction.read 0x010 16).wellFormed = false := by decide
theorem test_wf_misaligned_access_refused : (Transaction.write 0x012 32 0#32).wellFormed = false := by decide
theorem test_wf_unmapped_access_refused : (Transaction.read 0x02C 32).wellFormed = false := by decide
theorem test_wf_outside_access_refused : (Transaction.read 0x2000 32).wellFormed = false := by decide
theorem test_wf_access_accepted : (Transaction.write 0x1FFC 32 0#32).wellFormed = true := by decide
theorem test_wf_mode_selector_refused : (Line.run (.modeEnc 16)).wellFormed = false := by decide
theorem test_wf_dec_selector_refused : (Line.command (.modeDec 16)).wellFormed = false := by decide
theorem test_wf_wr64_refused : (Line.wr64 .nonce (2 ^ 64)).wellFormed = false := by decide
theorem test_wf_wrbytes_refused : (Line.wrBytes .key [0#8]).wellFormed = false := by decide
theorem test_wf_wrbuf_refused : (Line.wrBuf 2 []).wellFormed = false := by decide
theorem test_wf_rdbuf_refused : (Line.rdBuf 3 4).wellFormed = false := by decide
theorem test_wf_instr_accepted : Instr.wellFormed .sha1Cmpi = true := by decide

/-! ## Decoding: every instruction's word, written out from R101 to R104 (RSV INJ FL MODE OP) -/

theorem test_decode_pkcs7Pad : decode 0b000000000000000000_0_0_0000_00000001#32 = .ok .pkcs7Pad := by decide
theorem test_decode_pkcs7Unpad : decode 0b000000000000000000_0_0_0000_00000010#32 = .ok .pkcs7Unpad := by decide
theorem test_decode_cbcEnc : decode 0b000000000000000000_0_0_0001_00010000#32 = .ok .cbcEnc := by decide
theorem test_decode_cbcDec : decode 0b000000000000000000_0_0_0001_00010001#32 = .ok .cbcDec := by decide
theorem test_decode_ctrEnc : decode 0b000000000000000000_0_0_0010_00010000#32 = .ok .ctrEnc := by decide
theorem test_decode_ctrDec : decode 0b000000000000000000_0_0_0010_00010001#32 = .ok .ctrDec := by decide
theorem test_decode_ksInit : decode 0b000000000000000000_0_0_0000_00011000#32 = .ok .ksInit := by decide
theorem test_decode_ksNext : decode 0b000000000000000000_0_0_0000_00011001#32 = .ok .ksNext := by decide
theorem test_decode_sha1Pad : decode 0b000000000000000000_0_0_0000_00100000#32 = .ok .sha1Pad := by decide
theorem test_decode_sha1Padf : decode 0b000000000000000000_0_1_0000_00100000#32 = .ok .sha1Padf := by decide
theorem test_decode_sha1Upd : decode 0b000000000000000000_0_0_0000_00100001#32 = .ok .sha1Upd := by decide
theorem test_decode_sha1Cmp : decode 0b000000000000000000_0_0_0000_00100010#32 = .ok .sha1Cmp := by decide
theorem test_decode_sha1Cmpi : decode 0b000000000000000000_1_0_0000_00100010#32 = .ok .sha1Cmpi := by decide

/-- Vectors E1, E4 to E14 (95_test_vectors.md 3.6). -/
theorem test_decode_illegalCommand :
    ([0x00000000#32, 0x00001110#32, 0x00001710#32, 0x00004001#32, 0x00000101#32, 0x00002020#32, 0x00001022#32,
      0x00003020#32, 0x00000118#32, 0x00000003#32, 0x00000012#32, 0x0000001A#32, 0x00000023#32, 0x000000FF#32,
      0x80000110#32, 0x00002021#32].all fun w => decode w == .error .illegalCommand) = true := by decide +kernel

/-- Vectors E2, E3, C18. -/
theorem test_decode_illegalMode :
    ([0x00000010#32, 0x00000710#32, 0x00000311#32, 0x00000F11#32].all fun w => decode w == .error .illegalMode) = true := by
  decide +kernel

theorem test_table_word : decodeTableWord 32 8226 = some .sha1Cmpi := by decide

/-! ## The fetch word -/

theorem test_fetch_word_runs (i : Instr) :
    step (State.reset.withFetchWord 32 (encode i).toNat) =
      exec i (State.reset.accept (encode i)) := by cases i <;> rfl

/-! ## PKCS7 unit (vectors PD2, PD9, PD11, PD13) -/

theorem test_pkcs7Pad : result (exec .pkcs7Pad { withSource (bytes [0x61, 0x62, 0x63]) 0x800#32 with blksz := 16#32 })
    0x800 16 = some (bytes [0x61, 0x62, 0x63, 13, 13, 13, 13, 13, 13, 13, 13, 13, 13, 13, 13, 13], 16, false, 0) := by
  decide +kernel

theorem test_pkcs7Pad_badBlockSize :
    flags (exec .pkcs7Pad (withSource (bytes [0x61, 0x62, 0x63]) 0x800#32)) = some (0, true, 6) := by decide +kernel

theorem test_pkcs7Unpad : result (exec .pkcs7Unpad { withSource (bytes [0x49, 0x43, 0x45, 0x20, 0x49, 0x43, 0x45, 0x20,
      0x42, 0x41, 0x42, 0x59, 4, 4, 4, 4]) 0x800#32 with blksz := 16#32 }) 0x800 12 =
    some (bytes [0x49, 0x43, 0x45, 0x20, 0x49, 0x43, 0x45, 0x20, 0x42, 0x41, 0x42, 0x59], 12, false, 0) := by
  decide +kernel

theorem test_pkcs7Unpad_invalidPadding : flags (exec .pkcs7Unpad { withSource (bytes [0x49, 0x43, 0x45, 0x20, 0x49, 0x43,
      0x45, 0x20, 0x42, 0x41, 0x42, 0x59, 1, 2, 3, 4]) 0x800#32 with blksz := 16#32 }) = some (0, true, 1) := by
  decide +kernel

/-! ## MODE unit, over the toy primitive (vectors T1, C2, C9, C10, K5, K3) -/

theorem test_toy_primitive : bytesOfBlock (toyEncrypt (blockOfBytes (bytes [0x00, 0x11, 0x22, 0x33, 0x44, 0x55, 0x66,
      0x77, 0x88, 0x99, 0xAA, 0xBB, 0xCC, 0xDD, 0xEE, 0xFF])) (blockOfBytes (bytes (List.range 16)))) =
    bytes [0x12, 0x25, 0x34, 0x4B, 0x56, 0x69, 0x78, 0x97, 0x9A, 0xAD, 0xBC, 0xD3, 0xDE, 0xF1, 0x00, 0x1F] := by
  decide +kernel

theorem test_cbcEnc : result (cbcEncWith toyEncrypt
      { withSource (bytes [0x61, 0x62, 0x63]) 0x100#32 with key := k1, iv := iv1 }) 0x100 16 =
    some (bytes [0x3B, 0x26, 0x45, 0x49, 0x4C, 0x62, 0x31, 0x5E, 0x5A, 0x4F, 0x56, 0x4C, 0x5F, 0x58, 0x5B, 0x34],
      16, false, 0) := by decide +kernel

theorem test_cbcEnc_two_blocks : cbcEncrypt toyEncrypt (bytesOfBlock k1.toBlock) k1.toBlock iv1.toBlock =
    bytes [0x1E, 0x0D, 0x06, 0x0B, 0x22, 0x77, 0x7B, 0x16, 0x27, 0x0F, 0x12, 0x2B, 0x23, 0x17, 0x13, 0x2C,
      0x45, 0x55, 0x5A, 0x82, 0x2D, 0x42, 0x2D, 0x6C, 0x53, 0x4A, 0x81, 0x7E, 0x62, 0x58, 0x81, 0x5B] := by
  decide +kernel

theorem test_cbcDec : result (cbcDecWith toyDecrypt
      { withSource (bytes [0x1A, 0x08, 0x11, 0x0D, 0x10, 0x16, 0x6D, 0x22, 0x26, 0x13, 0x12, 0x18, 0x2B, 0x53, 0x4F, 0x14])
        0x100#32 with key := k1, iv := iv1 }) 0x100 15 =
    some (bytes (List.replicate 14 0x41 ++ [2]), 15, false, 0) := by decide +kernel

theorem test_cbcDec_invalidPadding : flags (cbcDecWith toyDecrypt
      { withSource (bytes [0x1A, 0x08, 0x11, 0x0D, 0x10, 0x16, 0x6D, 0x22, 0x26, 0x13, 0x12, 0x18, 0x2B, 0x52, 0x51, 0x14])
        0x100#32 with key := k1, iv := iv1 }) = some (0, true, 1) := by decide +kernel

theorem test_ctr : result (ctrWith toyEncrypt { withSource (bytes [0x61, 0x74, 0x74, 0x61, 0x63, 0x6B, 0x20, 0x61, 0x74,
      0x20, 0x64, 0x61, 0x77, 0x6E, 0x2C, 0x20, 0x32, 0x31, 0x20, 0x62, 0x79]) 0x100#32 with key := k1 }) 0x100 21 =
    some (bytes [0x3B, 0x33, 0x3B, 0x31, 0x37, 0x36, 0x07, 0x3A, 0x2A, 0x6C, 0x3C, 0x2C, 0x28, 0x39, 0x71, 0x75, 0x68,
      0x76, 0x6F, 0x32, 0x2D], 21, false, 0) := by decide +kernel

/-- Vector K3, the first block, and the counter. -/
theorem test_ksNext : ((nextOf (ksNextWith toyEncrypt { State.reset with
      key := k1, nonce := ⟨0x89ABCDEF#32, 0x01234567#32⟩ })).map fun t => (t.ksb, t.cnt.toNat)) =
    some (⟨0x2FC8F095#32, 0x5B287A0F#32, 0x4D584C5E#32, 0xBA5D575F#32⟩, 1) := by decide +kernel

/-- Vector K9: the counter wraps. -/
theorem test_ksNext_wraps : ((nextOf (ksNextWith toyEncrypt { State.reset with
      key := k1, cnt := ⟨0xFFFFFFFF#32, 0xFFFFFFFF#32⟩ })).map fun t => (t.ksb.bytes, t.cnt.toNat)) =
    some (bytes [0x5A, 0x47, 0x4F, 0x50, 0x54, 0x5D, 0x27, 0xB4, 0xB3, 0xC7, 0xBD, 0xCA, 0xBA, 0xC4, 0xC0, 0x55], 0) := by
  decide +kernel

/-- Vector K4. -/
theorem test_ksInit : ((nextOf (exec .ksInit { State.reset with ksb := k1, cnt := ⟨3#32, 0#32⟩ })).map fun t =>
    (t.ksb, t.cnt.toNat)) = some (k1, 0) := by decide +kernel

/-! ## SHA1 unit (vectors S2, S4d, S5b, S7a, S7e and the padding of R194) -/

theorem test_sha1Pad : result (exec .sha1Pad (withSource (bytes [0x61, 0x62, 0x63]) 0x800#32)) 0x800 64 =
    some (bytes ([0x61, 0x62, 0x63, 0x80] ++ List.replicate 59 0 ++ [0x18]), 64, false, 0) := by decide +kernel

theorem test_sha1Pad_two_chunks : sha1PadBytes (List.replicate 56 0x61#8) 56 =
    List.replicate 56 0x61#8 ++ bytes ([0x80] ++ List.replicate 69 0 ++ [0x01, 0xC0]) := by decide +kernel

theorem test_sha1Padf : result (exec .sha1Padf { withSource (bytes [0x61, 0x62, 0x63]) 0x800#32 with
      flen := ⟨5#32, 0x20000000#32⟩ }) 0x800 64 =
    some (bytes ([0x61, 0x62, 0x63, 0x80] ++ List.replicate 59 0 ++ [0x28]), 64, false, 0) := by decide +kernel

theorem test_sha1Upd : ((nextOf (exec .sha1Upd { withSource (bytes (List.range 64)) 0#32 with hash := sha1Iv })).map
      fun t => (t.hash, t.prior.toNat, t.outlen.toNat)) =
    some (⟨0xB9AC757B#32, 0xBC297925#32, 0x2E227274#32, 0x06872F94#32, 0xCBEA56A1#32⟩, 64, 0) := by decide +kernel

theorem test_sha1Cmp : result (exec .sha1Cmp (withSource (bytes [0x61, 0x62, 0x63]) 0x40#32)) 0x40 20 =
    some (bytes [0xA9, 0x99, 0x3E, 0x36, 0x47, 0x06, 0x81, 0x6A, 0xBA, 0x3E, 0x25, 0x71, 0x78, 0x50, 0xC2, 0x6C,
      0x9C, 0xD0, 0xD8, 0x9D], 20, false, 0) := by decide +kernel

theorem test_sha1Cmpi : ((nextOf (exec .sha1Cmpi { withSource (bytes [0x61, 0x62, 0x63]) 0x40#32 with
      hash := sha1Iv, prior := ⟨5#32, 0#32⟩ })).map fun t => (t.hash, t.prior.toNat)) =
    some (⟨0x42EDA312#32, 0x74B35E9B#32, 0x8044562F#32, 0x3E67380A#32, 0xBC36E969#32⟩, 69) := by decide +kernel

/-- Vector S9, steps 3 and 4: length extension. -/
theorem test_sha1Cmpi_length_extension : digest (sha1Compress (bytes [0x3B, 0x61, 0x64, 0x6D, 0x69, 0x6E, 0x3D, 0x74,
      0x72, 0x75, 0x65]) ⟨0xD8321AEF#32, 0xF3FAA3FE#32, 0x59F53FA3#32, 0x2198C37F#32, 0x4807049E#32⟩ 64) =
    bytes [0x3D, 0x3E, 0x5A, 0x9C, 0xA5, 0xBD, 0xD2, 0xFC, 0xB4, 0x0A, 0xA0, 0xCB, 0x6A, 0xE8, 0x29, 0x89, 0x78, 0xC4,
      0x3A, 0xFF] := by decide +kernel

/-! ## Ranges (vectors G1r, G2r, G3r, G4r, G10r, G17r) and priority (Q1, Q3, Q5) -/

theorem test_ranges_cbcEnc_fits : checkCbcEnc { State.reset with len := 2032#32, dst := 2032#32 } = none := by decide
theorem test_ranges_cbcEnc_overlap :
    checkCbcEnc { State.reset with len := 2032#32, dst := 2031#32 } = some .badRange := by decide
theorem test_ranges_cbcEnc_largest : checkCbcEnc { State.reset with len := 2047#32, dst := 2047#32 } = none := by decide
theorem test_ranges_cbcEnc_too_long :
    checkCbcEnc { State.reset with len := 2048#32, dst := 2048#32 } = some .badRange := by decide
theorem test_ranges_no_wrap :
    checkCbcEnc { State.reset with src := 0xFFFFFFFF#32, len := 1#32 } = some .badRange := by decide
theorem test_ranges_sha1Upd_dst_unchecked :
    checkSha1Upd { State.reset with len := 4096#32, dst := 0xFFFFFFFF#32 } = none := by decide
theorem test_priority_length_before_range :
    checkCbcDec { State.reset with src := 0xFFFFFFFF#32, len := 15#32 } = some .badLength := by decide
theorem test_priority_blockSize_before_length : checkPkcs7Unpad State.reset = some .badBlockSize := by decide
theorem test_priority_range_before_padding :
    checkPkcs7Unpad { State.reset with blksz := 16#32, len := 16#32, dst := 8#32 } = some .badRange := by decide

/-! ## Bus (vectors B2, B5, B8), writes while busy (W2, W4), soft reset (Z3, Z5) -/

theorem test_bus_hole : (State.reset.hostRead 0x084 32).response = some .busError := by decide
theorem test_bus_key : ((State.reset.hostWrite 0x030 32 0x03020100#32).key.bytes).take 4 = bytes [0, 1, 2, 3] := by
  decide
theorem test_bus_ien : (State.reset.hostWrite 0x00C 32 0xFFFFFFFF#32).readReg .ien = 3#32 := by decide
theorem test_bus_window : ((State.reset.hostWrite 0x1000 32 0x64636261#32).hostRead 0x1000 32).response =
    some (.okRead 0x64636261#32) := by decide +kernel
theorem test_busy_write_discarded :
    ((State.reset.accept 0x00000001#32).hostWrite 0x01C 32 3#32).readReg .status = 0x00000009#32 := by decide
theorem test_busy_command_discarded :
    ((State.reset.accept 0x00000001#32).hostWrite 0x014 32 2#32).cmd = 0x00000001#32 := by decide
theorem test_soft_reset_keeps_buf : (softReset (withSource (bytes [0x61]) 0#32)).buf = [(0, 0x61#8)] := by decide

/-- Vector Z5: the abandoned range is that of `CBC.ENC` with `LEN = 3`. -/
theorem test_soft_reset_abandoned :
    abandonedLength { withSource (bytes [0x61, 0x62, 0x63]) 0x100#32 with cmd := 0x00000110#32 } = 16 := by
  decide +kernel

/-! ## Programs: the expansion of `WRBUF` and `WRBYTES` (PRG2), the words of `RDBUF` (R109), `PKCS7.PAD` straight after
reset (vector Z2), and `WAIT` on an idle block -/

theorem test_wrbuf : programEvents [] [.wrBuf 0x40 (bytes [0x61, 0x74, 0x74, 0x61, 0x63])] =
    [.bus (.write 0x1040 32 0x61747461#32), .bus (.write 0x1044 32 0x00000063#32)] := by decide
theorem test_wrbytes : programEvents [] [.wrBytes .key (bytesOfBlock k1.toBlock)] =
    [.bus (.write 0x030 32 0x4C4C4559#32), .bus (.write 0x034 32 0x5320574F#32),
      .bus (.write 0x038 32 0x414D4255#32), .bus (.write 0x03C 32 0x454E4952#32)] := by decide +kernel
theorem test_rdbuf_result : rdBufResult 5 [0x61747461#32, 0x00000063#32] = bytes [0x61, 0x74, 0x74, 0x61, 0x63] := by
  decide
theorem test_run_pkcs7Pad_after_reset :
    ((nextOf (stepTimes 5 { State.reset with
      agenda := programEvents [⟨false, 0⟩, ⟨false, 1⟩] [.run (.instr .pkcs7Pad)] })).map fun t => (t.agenda, t.response)) =
    some ([], some (.okRead 0x00000606#32)) := by decide +kernel
theorem test_wait_idle_ends_at_once :
    ((nextOf (step { State.reset with agenda := programEvents [⟨false, 9⟩] [.wait] })).map
      fun t => (t.agenda, t.response)) = some ([], some (.okRead 0x00000000#32)) := by decide +kernel

/-! ## Witnesses: for each statement with hypotheses, concrete values that meet them -/

/-- A transaction at the head of an agenda. -/
def facing (s : State) (t : Transaction) : State := { s with agenda := [.bus t] }

theorem witness_CommandWriteIsAcceptedWhileIdle :
    (facing State.reset (.write 0x014 32 0#32)).agenda = .bus (.write 0x014 32 0#32) :: [] ∧
    (facing State.reset (.write 0x014 32 0#32)).rstAsserted = false ∧
    (facing State.reset (.write 0x014 32 0#32)).status.busy = false := by decide

theorem witness_StepRunsTheDecodedInstruction_empty_agenda :
    (State.reset.accept 0x00000018#32).status.busy = true ∧
    decode (State.reset.accept 0x00000018#32).cmd = .ok .ksInit ∧
    (State.reset.accept 0x00000018#32).agenda = [] := by decide

theorem witness_StepRunsTheDecodedInstruction_engine_turn :
    ({ State.reset.accept 0x00000019#32 with agenda := [.engine, .engine] } : State).status.busy = true ∧
    decode ({ State.reset.accept 0x00000019#32 with agenda := [.engine, .engine] } : State).cmd = .ok .ksNext ∧
    ({ State.reset.accept 0x00000019#32 with agenda := [.engine, .engine] } : State).agenda = .engine :: [.engine] := by
  decide

theorem witness_StepTakesTheDecodeException_illegalMode :
    (State.reset.accept 0x00000010#32).status.busy = true ∧ (State.reset.accept 0x00000010#32).agenda = [] ∧
    decode (State.reset.accept 0x00000010#32).cmd = .error .illegalMode := by decide

theorem witness_StepTakesTheDecodeException_illegalCommand :
    ({ State.reset.accept 0#32 with agenda := [.engine] } : State).status.busy = true ∧
    ({ State.reset.accept 0#32 with agenda := [.engine] } : State).agenda.head? = some .engine ∧
    decode ({ State.reset.accept 0#32 with agenda := [.engine] } : State).cmd = .error .illegalCommand := by decide

theorem witness_EngineDoesNothingWhileIdle_empty_agenda :
    State.reset.status.busy = false ∧ State.reset.agenda = [] := by decide

theorem witness_EngineDoesNothingWhileIdle_engine_turn :
    ({ State.reset with agenda := [.engine] } : State).status.busy = false ∧
    ({ State.reset with agenda := [.engine] } : State).agenda = .engine :: [] := by decide

/-- The invariant holds of a busy state too, and its step answers. -/
theorem witness_EveryStepKeepsTheInvariant :
    (State.reset.accept 0x00000022#32).Inv ∧ ∃ t, step (State.reset.accept 0x00000022#32) = .next t :=
  ⟨⟨by decide, by decide, by decide, by decide, by decide, by decide⟩, _, rfl⟩

theorem witness_ErrorsArePrecise :
    (State.reset.accept 0x00000001#32).status.busy = true ∧ (State.reset.accept 0x00000001#32).agenda = [] ∧
    ∃ t, step (State.reset.accept 0x00000001#32) = .next t ∧ t.status.err = true :=
  ⟨by decide, by decide, _, rfl, by decide⟩

theorem witness_ResultRegistersAreWrittenOnlyByTheirInstructions :
    (∃ t, exec .ksInit State.reset = .next t) ∧ (∃ t, exec .ksNext State.reset = .next t) ∧
    (∃ t, exec .sha1Upd State.reset = .next t) ∧ (∃ t, exec .sha1Pad { State.reset with dst := 64#32 } = .next t) :=
  ⟨⟨_, rfl⟩, ⟨_, rfl⟩, ⟨_, rfl⟩, ⟨_, rfl⟩⟩

theorem witness_PadAppendsACountedTail :
    1 ≤ 255 ∧ 255 ≤ 255 ∧ 255 = 255 - (bytes []).length % 255 := by decide

theorem witness_UnpadSucceedsExactlyOnValidPadding :
    1 ≤ 1 ∧ 1 ≤ 255 ∧ 1 ≤ 1 ∧ PaddedBy (bytes [1]) 1 ∧ pkcs7Unpad (bytes [1]) 1 = some [] := by decide

theorem witness_UnpadUndoesPad : 1 ≤ 16 ∧ 16 ≤ 255 ∧ pkcs7Unpad (pkcs7Pad (bytes []) 16) 16 = some [] := by decide

theorem witness_Pkcs7PadFollowsItsRule_badBlockSize : ¬BlockSizeLegal { State.reset with blksz := 256#32 } := by decide

theorem witness_Pkcs7PadFollowsItsRule_badRange :
    BlockSizeLegal { State.reset with blksz := 1#32, len := 4096#32 } ∧
    ¬RangesUsable { State.reset with blksz := 1#32, len := 4096#32 } (4096 + (1 - 4096 % 1)) := by decide

theorem witness_Pkcs7PadFollowsItsRule :
    BlockSizeLegal { State.reset with blksz := 255#32, dst := 3841#32 } ∧
    RangesUsable { State.reset with blksz := 255#32, dst := 3841#32 } (0 + (255 - 0 % 255)) := by decide

theorem witness_Pkcs7UnpadFollowsItsRule_badBlockSize : ¬BlockSizeLegal State.reset := by decide

theorem witness_Pkcs7UnpadFollowsItsRule_badLength :
    BlockSizeLegal { State.reset with blksz := 16#32 } ∧
    ({ State.reset with blksz := 16#32 } : State).len.toNat = 0 := by decide

theorem witness_Pkcs7UnpadFollowsItsRule_badRange :
    BlockSizeLegal { State.reset with blksz := 16#32, len := 1#32 } ∧
    1 ≤ ({ State.reset with blksz := 16#32, len := 1#32 } : State).len.toNat ∧
    ¬RangesUsable { State.reset with blksz := 16#32, len := 1#32 } 1 := by decide

/-- Vector PD16: a source that ends in `00`. -/
def badlyPadded : State := { withSource (bytes [0x41, 0]) 16#32 with blksz := 16#32 }

theorem badlyPadded_source : badlyPadded.source = bytes [0x41, 0] := by decide +kernel

theorem not_validlyPadded_zero {s : List Byte} {B : Nat} (hB : B ≤ 255) (h : s.getLast? = some 0#8) :
    ¬ValidlyPadded s B := by
  rintro ⟨V, hV, h1, h2, h3⟩
  have := h3 (s.length - 1) (by omega) (by omega)
  rw [← List.getLast?_eq_getElem?, h] at this
  have h4 := congrArg BitVec.toNat (Option.some.inj this)
  simp only [BitVec.toNat_ofNat] at h4
  omega

theorem witness_Pkcs7UnpadFollowsItsRule_invalidPadding :
    BlockSizeLegal badlyPadded ∧ 1 ≤ badlyPadded.len.toNat ∧ RangesUsable badlyPadded badlyPadded.len.toNat ∧
    ¬ValidlyPadded badlyPadded.source badlyPadded.blksz.toNat :=
  ⟨by decide, by decide, by decide, not_validlyPadded_zero (by decide) (by rw [badlyPadded_source]; rfl)⟩

/-- Vector PD18: a source that is all padding. -/
def allPadding : State := { withSource (bytes [2, 2]) 16#32 with blksz := 2#32 }

theorem witness_Pkcs7UnpadFollowsItsRule :
    BlockSizeLegal allPadding ∧ 1 ≤ allPadding.len.toNat ∧ RangesUsable allPadding allPadding.len.toNat ∧
    2 ≤ allPadding.blksz.toNat ∧ PaddedBy allPadding.source 2 := by decide +kernel

theorem witness_CbcDecryptUnchainsEachBlockFromTheOneBefore :
    0 < (List.replicate 16 0#8).length ∧ (List.replicate 16 0#8).length % 16 = 0 ∧
    0 < (List.replicate 16 0#8).length / 16 := by decide

theorem witness_CbcDecryptUndoesCbcEncrypt : ∀ b k : Block, Config.decrypt (Config.encrypt b k) k = b := by
  intro b k
  exact (Config.primitive k).symm_apply_apply b

theorem witness_CbcDecryptCarriesADifferenceOfThePrecedingBlock :
    (bytesOfBlock 5#128).length % 16 = 0 ∧ 0 < (bytesOfBlock 5#128).length / 16 ∧
    blockAt (bytesOfBlock 5#128) 0 = blockAt (bytesOfBlock 5#128) 0 ∧
    blockBefore (7#128 ^^^ 1#128) (bytesOfBlock 5#128) 0 = blockBefore 7#128 (bytesOfBlock 5#128) 0 ^^^ 1#128 := by
  decide +kernel

theorem witness_CbcEncFollowsItsRule_badRange :
    ¬RangesUsable { State.reset with dst := 4081#32 } (0 + 16 - 0 % 16) := by decide

theorem witness_CbcEncFollowsItsRule : RangesUsable { State.reset with dst := 4080#32 } (0 + 16 - 0 % 16) := by decide

theorem witness_CbcDecFollowsItsRule_badLength :
    ¬(16 ≤ ({ State.reset with len := 15#32 } : State).len.toNat ∧
      ({ State.reset with len := 15#32 } : State).len.toNat % 16 = 0) := by decide

theorem witness_CbcDecFollowsItsRule_badRange :
    16 ≤ ({ State.reset with len := 16#32 } : State).len.toNat ∧
    ({ State.reset with len := 16#32 } : State).len.toNat % 16 = 0 ∧
    ¬RangesUsable { State.reset with len := 16#32 } 16 := by decide

/-- A source of one block: what the primitive makes of `p`, key and IV zero. -/
def oneCipherBlock (p : Block) : State := withSource (bytesOfBlock (Config.encrypt p zeroQuad.toBlock)) 16#32

theorem oneCipherBlock_raw (p : Block) : cbcDecryptRaw Config.decrypt (oneCipherBlock p).source
    (oneCipherBlock p).key.toBlock (oneCipherBlock p).iv.toBlock = bytesOfBlock p := by
  have hs : (oneCipherBlock p).source = bytesOfBlock (Config.encrypt p zeroQuad.toBlock) := by
    have hl : (oneCipherBlock p).len.toNat = (bytesOfBlock (Config.encrypt p zeroQuad.toBlock)).length := by
      simp [oneCipherBlock, withSource]
    have h0 : (oneCipherBlock p).src.toNat = 0 := rfl
    have hb : (oneCipherBlock p).buf =
        Memory.writeBytes [] 0 (bytesOfBlock (Config.encrypt p zeroQuad.toBlock)) := rfl
    rw [State.source, hl, h0]
    exact memRead_written hb
  have hk : (oneCipherBlock p).key.toBlock = zeroQuad.toBlock := rfl
  have hi : (oneCipherBlock p).iv.toBlock = 0#128 := by
    have h : (oneCipherBlock p).iv = zeroQuad := rfl
    rw [h]
    decide
  rw [hs, hk, hi, cbcDecryptRaw]
  simp only [blocks16, bytesOfBlock_length, pieces, List.map_cons, List.map_nil]
  rw [List.take_of_length_le (by simp), blockOfBytes_bytesOfBlock]
  simp [cbcUnchain, bytesOfBlocks, witness_CbcDecryptUndoesCbcEncrypt]

theorem oneCipherBlock_ranges (p : Block) : 16 ≤ (oneCipherBlock p).len.toNat ∧
    (oneCipherBlock p).len.toNat % 16 = 0 ∧ RangesUsable (oneCipherBlock p) (oneCipherBlock p).len.toNat := by
  have hl : (oneCipherBlock p).len.toNat = 16 := by simp [oneCipherBlock, withSource]
  have hsrc : (oneCipherBlock p).src.toNat = 0 := rfl
  have hdst : (oneCipherBlock p).dst.toNat = 16 := rfl
  unfold RangesUsable
  rw [hl, hsrc, hdst]
  decide

theorem witness_CbcDecFollowsItsRule_invalidPadding :
    16 ≤ (oneCipherBlock 0#128).len.toNat ∧ (oneCipherBlock 0#128).len.toNat % 16 = 0 ∧
    RangesUsable (oneCipherBlock 0#128) (oneCipherBlock 0#128).len.toNat ∧
    ¬ValidlyPadded (cbcDecryptRaw Config.decrypt (oneCipherBlock 0#128).source
      (oneCipherBlock 0#128).key.toBlock (oneCipherBlock 0#128).iv.toBlock) 16 := by
  obtain ⟨h1, h2, h3⟩ := oneCipherBlock_ranges 0#128
  refine ⟨h1, h2, h3, not_validlyPadded_zero (by decide) ?_⟩
  rw [oneCipherBlock_raw]
  decide

theorem witness_CbcDecFollowsItsRule :
    16 ≤ (oneCipherBlock (1#128 <<< 120)).len.toNat ∧ (oneCipherBlock (1#128 <<< 120)).len.toNat % 16 = 0 ∧
    RangesUsable (oneCipherBlock (1#128 <<< 120)) (oneCipherBlock (1#128 <<< 120)).len.toNat ∧ 1 ≤ 16 ∧
    PaddedBy (cbcDecryptRaw Config.decrypt (oneCipherBlock (1#128 <<< 120)).source
      (oneCipherBlock (1#128 <<< 120)).key.toBlock (oneCipherBlock (1#128 <<< 120)).iv.toBlock) 1 := by
  obtain ⟨h1, h2, h3⟩ := oneCipherBlock_ranges (1#128 <<< 120)
  refine ⟨h1, h2, h3, by decide, ?_⟩
  rw [oneCipherBlock_raw]
  decide +kernel

theorem witness_CbcDecCommandUndoesCbcEncCommand :
    RangesUsable State.reset (0 + 16 - 0 % 16) ∧
    ∃ t, exec .cbcEnc State.reset = .next t ∧
      RangesUsable { t with src := State.reset.dst, len := t.outlen, dst := 16#32 } t.outlen.toNat := by
  refine ⟨by decide, _, rfl, ?_⟩
  have hl : (State.deliver State.reset (cbcEncrypt Config.encrypt State.reset.source State.reset.key.toBlock
      State.reset.iv.toBlock)).succeed.outlen = 16#32 := by
    simp [cbcEncrypt, pkcs7Pad, padCount, State.reset]
  unfold RangesUsable
  rw [hl]
  decide

theorem witness_CounterBlockIsNonceThenCounterLittleEndian :
    2 ^ 64 - 1 < 2 ^ 64 ∧ 0 < 2 ^ 64 ∧ 7 < 8 := by decide

theorem witness_KeystreamByteIsAByteOfItsBlock : 16 < 17 := by decide

theorem witness_CtrEncAndCtrDecFollowTheirRule_badRange :
    ¬RangesUsable { State.reset with len := 2049#32, dst := 2048#32 } 2049 := by decide

theorem witness_CtrEncAndCtrDecFollowTheirRule :
    RangesUsable { State.reset with len := 2048#32, dst := 2048#32 } 2048 := by decide

theorem witness_Sha1ScheduleFollowsItsRecurrence : (List.replicate 64 0#8).length = 64 ∧ 16 ≤ 79 ∧ 79 < 80 := by decide

theorem witness_Sha1ChunkRunsItsEightyRounds :
    (List.replicate 64 0#8).length = 64 ∧ 15 < 16 ∧ 16 ≤ 16 ∧ 19 ≤ 19 ∧ 20 ≤ 39 ∧ 40 ≤ 59 ∧ 60 ≤ 79 ∧ 79 < 80 := by decide

theorem witness_Sha1FoldAbsorbsTheChunksInOrder :
    List.replicate 64 0#8 ≠ [] ∧ (List.replicate 64 0#8).length % 64 = 0 := by decide

theorem witness_Sha1CompressSplitsAtAChunkBoundary :
    (List.replicate 64 0#8).length % 64 = 0 ∧
    (2 ^ 64 - 66) + (List.replicate 64 0#8).length + [0#8].length < 2 ^ 64 := by decide

theorem witness_Sha1LengthExtension : (sha1PadBytes [] 0).drop 0 = sha1PadBytes [] 0 := rfl

theorem witness_Sha1PadFollowsItsRule_badRange :
    ((63 : Nat) : Int) = (55 - ((56 : Nat) : Int)) % 64 ∧
    ¬RangesUsable { State.reset with len := 56#32, dst := 3969#32 } (56 + 1 + 63 + 8) := by decide

theorem witness_Sha1PadFollowsItsRule :
    ((63 : Nat) : Int) = (55 - ((56 : Nat) : Int)) % 64 ∧
    RangesUsable { State.reset with len := 56#32, dst := 3968#32 } (56 + 1 + 63 + 8) := by decide

theorem witness_Sha1PadfFollowsItsRule_badRange :
    ((0 : Nat) : Int) = (55 - ((55 : Nat) : Int)) % 64 ∧
    ¬RangesUsable { State.reset with len := 55#32, dst := 54#32 } (55 + 1 + 0 + 8) := by decide

theorem witness_Sha1PadfFollowsItsRule :
    ((0 : Nat) : Int) = (55 - ((55 : Nat) : Int)) % 64 ∧
    RangesUsable { State.reset with len := 55#32, dst := 55#32 } (55 + 1 + 0 + 8) := by decide

theorem witness_Sha1UpdFollowsItsRule_badLength : ({ State.reset with len := 65#32 } : State).len.toNat % 64 ≠ 0 := by
  decide

theorem witness_Sha1UpdFollowsItsRule_badRange :
    ({ State.reset with src := 64#32, len := 4096#32 } : State).len.toNat % 64 = 0 ∧
    ¬SourceUsable { State.reset with src := 64#32, len := 4096#32 } := by decide

theorem witness_Sha1UpdFollowsItsRule :
    ({ State.reset with len := 4096#32 } : State).len.toNat % 64 = 0 ∧
    SourceUsable { State.reset with len := 4096#32 } := by decide

theorem witness_Sha1CmpFollowsItsRule_badRange :
    ¬RangesUsable { State.reset with len := 4077#32, dst := 4077#32 } 20 := by decide

theorem witness_Sha1CmpFollowsItsRule : RangesUsable { State.reset with len := 4076#32, dst := 4076#32 } 20 := by decide

theorem witness_Sha1CmpiFollowsItsRule_badRange :
    ¬RangesUsable { State.reset with len := 100#32, dst := 90#32 } 20 := by decide

theorem witness_Sha1CmpiFollowsItsRule : RangesUsable { State.reset with len := 0#32, dst := 0#32 } 20 := by decide

theorem witness_Sha1CmpiContinuesSha1CmpAsLengthExtension :
    RangesUsable State.reset 20 ∧ ∃ t, exec .sha1Cmp State.reset = .next t ∧
      ∃ u : State, u.hash = t.hash ∧ u.prior = t.prior ∧ RangesUsable u 20 :=
  ⟨by decide, _, rfl, { State.reset with hash := _, prior := _ }, rfl, rfl, by decide⟩

theorem witness_ByteArrayRegistersPackLittleEndian : 15 / 4 < 4 := by decide

theorem witness_StatusAndIenReadTheirFields : 4 ≤ 7 ∧ 7 ≤ 7 ∧ 12 ≤ 12 ∧ 2 ≤ 2 := by decide

theorem witness_BusErrorAnswersExactlyTheIllFormedAccesses :
    (facing State.reset (.read 0x098 32)).rstAsserted = false ∧ IllFormedAccess 0x098 32 ∧
    (facing State.reset (.read 0x098 32)).agenda = .bus (.read 0x098 32) :: [] ∧ ¬IllFormedAccess 0x094 32 ∧
    (facing State.reset (.write 0x094 32 0#32)).agenda = .bus (.write 0x094 32 0#32) :: [] :=
  ⟨rfl, by decide, rfl, by decide, rfl⟩

theorem illFormed_boundaries : IllFormedAccess 0xFFC 32 ∧ IllFormedAccess 0x02C 32 ∧ IllFormedAccess 0x2000 32 ∧
    IllFormedAccess 0x094 16 ∧ ¬IllFormedAccess 0x1000 32 ∧ ¬IllFormedAccess 0x1FFC 32 := by
  refine ⟨?_, ?_, ?_, ?_, ?_, ?_⟩ <;> decide

theorem witness_HostReadsChangeNoState :
    (facing State.reset (.read 0x1000 32)).agenda = .bus (.read 0x1000 32) :: [] ∧
    ∃ t, step (facing State.reset (.read 0x1000 32)) = .next t := ⟨rfl, _, rfl⟩

theorem witness_HostReadReturnsTheTargetOrAFreeWord_map :
    (facing State.reset (.read 0x094 32)).rstAsserted = false ∧
    (0x094, 0#32) ∈ exactReads (facing State.reset (.read 0x094 32)) ∧
    (0x08C, 0#32) ∈ resultReads (facing State.reset (.read 0x08C 32)) ∧
    (facing State.reset (.read 0x08C 32)).status.busy = false ∧
    (0x024, 0#32) ∈ resultReads (facing (State.reset.accept 0x18#32) (.read 0x024 32)) ∧
    (facing (State.reset.accept 0x18#32) (.read 0x024 32)).status.busy = true := by
  refine ⟨?_, ?_, ?_, ?_, ?_, ?_⟩ <;> decide

theorem witness_HostReadReturnsTheTargetOrAFreeWord_busy :
    (facing (State.reset.accept 0x18#32) (.read 0x080 32)).rstAsserted = false ∧
    Target.ofOffset 0x080 = some (.reg (.shaH 4)) ∧
    (facing (State.reset.accept 0x18#32) (.read 0x080 32)).status.busy = true ∧ UnspecifiedRow (.reg (.shaH 4)) :=
  ⟨by decide, by decide, by decide, .inr (.inr (.inr (.inr (.inl ⟨4, rfl⟩))))⟩

theorem witness_HostReadReturnsTheTargetOrAFreeWord :
    (facing State.reset (.read 0x1FFC 32)).rstAsserted = false ∧
    Target.ofOffset 0x1FFC = some (.window 4092) ∧ (facing State.reset (.read 0x1FFC 32)).status.busy = false := by
  decide

theorem witness_WindowReadsAndWritesFourBytes :
    4092 % 4 = 0 ∧ 4092 + 4 ≤ 4096 ∧ (facing State.reset (.read 0x1FFC 32)).rstAsserted = false ∧
    (facing State.reset (.read 0x1FFC 32)).status.busy = false ∧
    (facing State.reset (.read 0x1FFC 32)).agenda = .bus (.read (0x1000 + 4092) 32) :: [] ∧
    (facing State.reset (.write 0x1FFC 32 0#32)).agenda = .bus (.write (0x1000 + 4092) 32 0#32) :: [] := by decide

/-- A source of three bytes at 0; an `RDBUF` of eight bytes that ends in the last byte of the buffer. -/
theorem witness_WindowReadsAndWritesFourBytes_rdbuf :
    2 < (withSource (bytes [1, 2, 3]) 0#32).len.toNat ∧ 4088 % 4 = 0 ∧ 4088 + 8 ≤ 4096 ∧ State.reset.rstAsserted = false ∧
    State.reset.status.busy = false ∧
    programEvents [] [.rdBuf 4088 8] ++ [] = [.bus (.read 0x1FF8 32), .bus (.read 0x1FFC 32)] := by
  refine ⟨?_, ?_, ?_, ?_, ?_, ?_⟩ <;> decide

theorem witness_PlainRegistersReadBackWhatWasWritten_map :
    (facing State.reset (.write 0x018 32 7#32)).agenda = .bus (.write 0x018 32 7#32) :: [] ∧
    (facing State.reset (.write 0x018 32 7#32)).rstAsserted = false ∧
    (facing State.reset (.write 0x018 32 7#32)).status.busy = false ∧
    (0x018, { facing State.reset (.write 0x018 32 7#32) with src := 7#32 }) ∈
      plainWrites (facing State.reset (.write 0x018 32 7#32)) 7#32 :=
  ⟨rfl, rfl, rfl, by simp [plainWrites]⟩

theorem witness_PlainRegistersReadBackWhatWasWritten :
    (facing State.reset (.write 0x094 32 7#32)).agenda = .bus (.write Reg.flenHi.offset 32 7#32) :: [] ∧
    (facing State.reset (.write 0x094 32 7#32)).rstAsserted = false ∧
    (facing State.reset (.write 0x094 32 7#32)).status.busy = false ∧ PlainRegister .flenHi :=
  ⟨by decide, by decide, by decide, by simp [PlainRegister]⟩

theorem witness_StatusWriteClearsTheWrittenFlags :
    (facing State.reset (.write 0x010 32 0xE#32)).agenda = .bus (.write 0x010 32 0xE#32) :: [] ∧
    (facing State.reset (.write 0x010 32 0xE#32)).rstAsserted = false := by decide

/-- The offsets of one target of each row of R244, and that the busy state faces a write to each. -/
theorem witness_WriteFilterWhileBusy :
    (State.reset.accept 0x18#32).status.busy = true ∧ (State.reset.accept 0x18#32).rstAsserted = false ∧
    Target.ofOffset 0x06C = some (.reg (.ksb 3)) ∧ ReadOnlyRow (.reg (.ksb 3)) ∧
    Target.ofOffset 0x1FFC = some (.window 4092) ∧ DiscardedRow (.window 4092) ∧
    Target.ofOffset 0x00C = some (.reg .ien) ∧ Target.ofOffset 0x010 = some (.reg .status) ∧
    Target.ofOffset 0x008 = some (.reg .ctrl) ∧ (1#32).getLsbD 0 = true ∧ (0xFFFFFFFE#32).getLsbD 0 = false ∧
    State.reset.status.busy = false ∧
    (facing (State.reset.accept 0x18#32) (.write 0x008 32 1#32)).agenda = .bus (.write 0x008 32 1#32) :: [] :=
  ⟨by decide, by decide, by decide, .inr (.inr (.inr (.inr (.inr ⟨3, rfl⟩)))), by decide,
    by simp [DiscardedRow], by decide, by decide, by decide, by decide, by decide, by decide, by decide⟩

/-- A write to `IEN` while idle. -/
theorem witness_WriteFilterWhileBusy_idle_ien :
    (facing State.reset (.write 0x00C 32 3#32)).agenda = .bus (.write 0x00C 32 3#32) :: [] ∧
    (facing State.reset (.write 0x00C 32 3#32)).rstAsserted = false ∧
    (facing State.reset (.write 0x00C 32 3#32)).status.busy = false ∧ Target.ofOffset 0x00C = some (.reg .ien) :=
  ⟨rfl, rfl, rfl, rfl⟩

/-- Idle; busy with a command that decodes to nothing; busy with a command whose checks pass (vector Z5). -/
theorem witness_SoftResetClearsRegistersAndKeepsBuf :
    (facing State.reset (.write 0x008 32 1#32)).agenda = .bus (.write 0x008 32 1#32) :: [] ∧
    (facing State.reset (.write 0x008 32 1#32)).rstAsserted = false ∧ (1#32).getLsbD 0 = true ∧
    (0xFFFFFFFE#32).getLsbD 0 = false ∧ State.reset.status.busy = false ∧
    (State.reset.accept 0x110#32).status.busy = true ∧ decode (State.reset.accept 0#32).cmd = .error .illegalCommand ∧
    decode ({ State.reset.accept 0x110#32 with len := 3#32, dst := 0x100#32 } : State).cmd = .ok .cbcEnc ∧
    operandCheck .cbcEnc { State.reset.accept 0x110#32 with len := 3#32, dst := 0x100#32 } = none := by decide

theorem witness_HardwareResetClearsRegistersAndForgetsBuf :
    ({ State.reset with agenda := [.rstAssert] } : State).agenda = .rstAssert :: [] ∧
    (facing { State.reset with rstAsserted := true } (.read 0 32)).rstAsserted = true ∧
    (facing { State.reset with rstAsserted := true } (.read 0 32)).agenda = .bus (.read 0 32) :: [] ∧
    ({ State.reset with agenda := [.rstRelease] } : State).agenda = .rstRelease :: [] := by decide

/-- Idle, and busy with two further polls. -/
theorem witness_WaitEndsWithBusyClear :
    ({ State.reset with agenda := programEvents [⟨false, 0⟩] [.wait] ++ [] } : State).agenda =
      programEvents [⟨false, 0⟩] [.wait] ++ [] ∧
    State.reset.status.busy = false ∧ State.reset.rstAsserted = false ∧
    ({ State.reset.accept 0x00000001#32 with agenda := programEvents [⟨false, 2⟩] [.wait] ++ [] } : State).agenda =
      programEvents [⟨false, 2⟩] [.wait] ++ [] ∧
    (State.reset.accept 0x00000001#32).status.busy = true := ⟨rfl, rfl, rfl, rfl, rfl⟩

end Sys2Proof.Tests
end

section
/-! The scope statements (00_scope.md, section 6): the idle engine and the primitive's inverse law. -/

namespace Sys2Proof.Proofs

open Sys2Proof Sys2Proof.Machine Sys2Proof.Laws

/-- An engine entry of the agenda is the engine's turn on the state without that entry (log entry 2). -/
theorem step_engine {s : State} {rest : List Event} (h : s.agenda = .engine :: rest) :
    step s = engineTurn exec { s with agenda := rest } :=
  step_cons h

/-- Settles O7: whether it comes from an empty agenda or from an `engine` entry, the step is the engine's turn, which
leaves an idle state as it is; taking the entry off the agenda does not touch `STATUS`. -/
theorem engineDoesNothingWhileIdle : Obligations.EngineDoesNothingWhileIdle := by
  intro s hidle
  constructor
  · intro hempty
    rw [step_nil hempty, engineTurn_idle exec hidle]
  · intro rest hengine
    have hidle' : ({ s with agenda := rest } : State).status.busy = false := hidle
    rw [step_engine hengine, engineTurn_idle exec hidle']

/-- Settles O19: for each key `E` is a permutation of the blocks and `D` its inverse (log entry 1). -/
theorem primitiveDecryptUndoesEncrypt : Obligations.PrimitiveDecryptUndoesEncrypt := by
  intro b k
  exact (Config.primitive k).symm_apply_apply b

end Sys2Proof.Proofs
end

section
/-! What a completed command leaves (60_exceptions.md R235, R236): every instruction is one completion of its operand
check, its output bytes and its result registers. Settles who writes the result registers and `BUF` (10_state.md R34 to
R37, R39). -/

namespace Sys2Proof.Proofs

open Sys2Proof Sys2Proof.Machine Sys2Proof.Laws

/-! ### Every instruction is a completion of one shape -/

/-- The state with the result registers of a command's effect, `OUTLEN` and `BUF` apart (R34 to R37). -/
def registersAfter : Instr → State → State
  | .ksInit, s => s.setKeystream s.ksb (pairOfNat 0)
  | .ksNext, s => s.setKeystream
      (quadOfBlock (Config.encrypt (ctrBlock s.nonce.toNat s.cnt.toNat) s.key.toBlock)) (pairOfNat (s.cnt.toNat + 1))
  | .sha1Upd, s => s.setHash (sha1Fold s.hash s.source) (s.prior.toNat + s.len.toNat)
  | .sha1Cmp, s =>
    s.setHash (sha1Fold sha1Iv (sha1PadBytes s.source s.len.toNat)) (0 + (sha1PadBytes s.source s.len.toNat).length)
  | .sha1Cmpi, s =>
    s.setHash (sha1Fold s.hash (sha1PadBytes s.source ((s.prior.toNat + s.len.toNat) % 2 ^ 64)))
      (s.prior.toNat + (sha1PadBytes s.source ((s.prior.toNat + s.len.toNat) % 2 ^ 64)).length)
  | .pkcs7Pad, s | .pkcs7Unpad, s | .cbcEnc, s | .cbcDec, s | .ctrEnc, s | .ctrDec, s | .sha1Pad, s | .sha1Padf, s => s

/-- The result of an unpadding, `InvalidPadding` where there is none (R131). -/
def unpaddedOutput (out : Option (List Byte)) : Except Exc (List Byte) :=
  match out with
  | none => .error .invalidPadding
  | some o => .ok o

/-- The bytes that a command writes at `DST`, none for one without a destination, or the exception of its data. -/
def outputOf : Instr → State → Except Exc (List Byte)
  | .pkcs7Pad, s => .ok (pkcs7Pad s.source s.blksz.toNat)
  | .pkcs7Unpad, s => unpaddedOutput (pkcs7Unpad s.source s.blksz.toNat)
  | .cbcEnc, s => .ok (cbcEncrypt Config.encrypt s.source s.key.toBlock s.iv.toBlock)
  | .cbcDec, s => unpaddedOutput (cbcDecrypt Config.decrypt s.source s.key.toBlock s.iv.toBlock)
  | .ctrEnc, s | .ctrDec, s => .ok (ctrXor Config.encrypt s.source s.key.toBlock s.nonce.toNat)
  | .ksInit, _ | .ksNext, _ | .sha1Upd, _ => .ok []
  | .sha1Pad, s => .ok (sha1PadBytes s.source s.len.toNat)
  | .sha1Padf, s => .ok (sha1PadBytes s.source s.flen.toNat)
  | .sha1Cmp, s => .ok (digest (registersAfter .sha1Cmp s).hash)
  | .sha1Cmpi, s => .ok (digest (registersAfter .sha1Cmpi s).hash)

theorem deliverUnpadded_eq_map (s : State) (out : Option (List Byte)) :
    deliverUnpadded s out = (unpaddedOutput out).map s.deliver := by
  cases out <;> rfl

theorem deliverNothing_eq (s : State) : s.deliverNothing = s.deliver [] := rfl

/-- The arms of `exec` agree with `registersAfter` and `outputOf`, under the checks of R272. -/
theorem exec_eq_complete (i : Instr) (s : State) :
    exec i s = complete s (operandCheck i s) ((outputOf i s).map (registersAfter i s).deliver) := by
  cases i with
  | pkcs7Unpad => rw [exec_pkcs7Unpad, deliverUnpadded_eq_map]; rfl
  | cbcDec => rw [exec_cbcDec, deliverUnpadded_eq_map]; rfl
  | ksNext => rw [exec_ksNext, deliverNothing_eq]; rfl
  | _ => rfl

/-- What an instruction can answer: an exception, taken from the state it started in, or success with the output at
`DST`. -/
theorem exec_next_cases {i : Instr} {s t : State} (h : exec i s = .next t) :
    (∃ x, t = s.takeException x) ∨
    ∃ out, operandCheck i s = none ∧ outputOf i s = .ok out ∧ t = ((registersAfter i s).deliver out).succeed := by
  rw [exec_eq_complete] at h
  rcases complete_cases h with ⟨x, -, ht⟩ | ⟨x, -, -, ht⟩ | ⟨u, hcheck, heffect, ht⟩
  · exact .inl ⟨x, by injection ht⟩
  · exact .inl ⟨x, by injection ht⟩
  · cases hout : outputOf i s with
    | error x => rw [hout] at heffect; cases heffect
    | ok out =>
      rw [hout] at heffect
      cases heffect
      exact .inr ⟨out, hcheck, rfl, by injection ht⟩

/-! ### What the effect leaves unchanged -/

theorem setKeystream_frame (s : State) (k : Quad) (c : Pair) : s.setKeystream k c = { s with
    cnt := (s.setKeystream k c).cnt
    ksb := (s.setKeystream k c).ksb
    hash := (s.setKeystream k c).hash
    prior := (s.setKeystream k c).prior } := rfl

/-- No effect writes a register but the result registers. -/
theorem registersAfter_frame (i : Instr) (s : State) : registersAfter i s = { s with
    cnt := (registersAfter i s).cnt
    ksb := (registersAfter i s).ksb
    hash := (registersAfter i s).hash
    prior := (registersAfter i s).prior } := by
  cases i with
  | ksNext => exact setKeystream_frame ..
  | _ => rfl

theorem registersAfter_hash_prior {i : Instr} (s : State) (hupd : i ≠ .sha1Upd) (hcmp : i ≠ .sha1Cmp)
    (hcmpi : i ≠ .sha1Cmpi) : (registersAfter i s).hash = s.hash ∧ (registersAfter i s).prior = s.prior := by
  cases i with
  | sha1Upd => exact absurd rfl hupd
  | sha1Cmp => exact absurd rfl hcmp
  | sha1Cmpi => exact absurd rfl hcmpi
  | ksNext => exact ⟨setKeystream_hash .., setKeystream_prior ..⟩
  | _ => exact ⟨rfl, rfl⟩

theorem registersAfter_cnt {i : Instr} (s : State) (hinit : i ≠ .ksInit) (hnext : i ≠ .ksNext) :
    (registersAfter i s).cnt = s.cnt := by
  cases i with
  | ksInit => exact absurd rfl hinit
  | ksNext => exact absurd rfl hnext
  | _ => rfl

theorem registersAfter_ksb {i : Instr} (s : State) (hnext : i ≠ .ksNext) : (registersAfter i s).ksb = s.ksb := by
  cases i with
  | ksNext => exact absurd rfl hnext
  | _ => rfl

/-! ### The bounds of the output -/

theorem unpaddedOutput_length_le {s out : List Byte} {B : Nat} (h : unpaddedOutput (pkcs7Unpad s B) = .ok out) :
    out.length ≤ s.length := by
  cases hu : pkcs7Unpad s B with
  | none => rw [hu] at h; cases h
  | some o => rw [hu] at h; cases h; exact pkcs7Unpad_length_le hu

@[simp] theorem pkcs7Pad_length (s : List Byte) (B : Nat) :
    (pkcs7Pad s B).length = s.length + padCount s.length B := by
  simp [pkcs7Pad]

@[simp] theorem sha1PadBytes_length (m : List Byte) (L : Nat) :
    (sha1PadBytes m L).length = m.length + 1 + sha1Fill m.length + 8 := by
  simp [sha1PadBytes]; omega

/-- An output is at most `MAXOUT` bytes (R132, R133, R154, R155, R174, R194, R197). -/
theorem outputOf_length_le {i : Instr} {s : State} {out : List Byte} (h : outputOf i s = .ok out) :
    out.length ≤ maxOut i s := by
  cases i with
  | pkcs7Pad => cases h; simp [maxOut, maxOutPkcs7Pad]
  | pkcs7Unpad => simpa [maxOut, maxOutPkcs7Unpad] using unpaddedOutput_length_le h
  | cbcEnc =>
    cases h
    simp only [maxOut, maxOutCbcEnc, cbcEncrypt, bytesOfBlocks_length, cbcChain_length, blocks16_length,
      pkcs7Pad_length, source_length]
    omega
  | cbcDec =>
    have hle := unpaddedOutput_length_le h
    simp only [cbcDecryptRaw, bytesOfBlocks_length, cbcUnchain_length, blocks16_length, source_length] at hle
    simp only [maxOut, maxOutCbcDec]
    omega
  | ctrEnc | ctrDec => cases h; simp [maxOut, maxOutCtr, ctrXor, xorBytes]
  | ksInit | ksNext | sha1Upd => cases h; exact Nat.zero_le _
  | sha1Pad | sha1Padf => cases h; simp [maxOut, maxOutSha1Pad]
  | sha1Cmp | sha1Cmpi => cases h; simp [maxOut, maxOutSha1Cmp]

/-- Where the operand check passes, the destination range lies in `BUF`, or it is empty (R79). -/
theorem maxOut_fits {i : Instr} {s : State} (h : operandCheck i s = none) :
    maxOut i s = 0 ∨ s.dst.toNat + maxOut i s ≤ Config.bufSize := by
  have fits {m : Nat} (hr : s.rangesOk m = true) : s.dst.toNat + m ≤ Config.bufSize := ((rangesOk_iff s m).1 hr).2.1
  cases i with
  | ksInit | ksNext | sha1Upd => exact .inl rfl
  | pkcs7Pad => exact .inr (fits (by grind [operandCheck, checkPkcs7Pad, maxOut]))
  | pkcs7Unpad => exact .inr (fits (by grind [operandCheck, checkPkcs7Unpad, maxOut]))
  | cbcEnc => exact .inr (fits (by simpa [operandCheck, checkCbcEnc, maxOut] using h))
  | cbcDec => exact .inr (fits (by grind [operandCheck, checkCbcDec, maxOut]))
  | ctrEnc | ctrDec => exact .inr (fits (by simpa [operandCheck, checkCtr, maxOut] using h))
  | sha1Pad | sha1Padf => exact .inr (fits (by simpa [operandCheck, checkSha1Pad, maxOut] using h))
  | sha1Cmp | sha1Cmpi => exact .inr (fits (by simpa [operandCheck, checkSha1Cmp, maxOut] using h))

/-- Everything that `exec` does to `BUF` (R39, R277): some bytes, none after an exception, stand at `DST`, inside the
buffer, and `OUTLEN` is their number. -/
theorem exec_writes_buf {i : Instr} {s t : State} (h : exec i s = .next t) : ∃ out : List Byte,
    t.buf = s.buf.writeBytes s.dst.toNat out ∧ t.outlen.toNat = out.length ∧ out.length ≤ maxOut i s ∧
    (out.length = 0 ∨ s.dst.toNat + out.length ≤ Config.bufSize) := by
  rcases exec_next_cases h with ⟨x, rfl⟩ | ⟨out, hcheck, hout, rfl⟩
  · exact ⟨[], rfl, rfl, Nat.zero_le _, .inl rfl⟩
  · have hle := outputOf_length_le hout
    have hfits : out.length = 0 ∨ s.dst.toNat + out.length ≤ Config.bufSize := by
      have := maxOut_fits hcheck
      omega
    have hsmall : out.length < 2 ^ 32 := by
      have hsize : Config.bufSize = 4096 := rfl
      omega
    refine ⟨out, ?_, ?_, hle, hfits⟩
    · rw [registersAfter_frame]; rfl
    · rw [succeed_outlen, deliver_outlen, BitVec.toNat_ofNat, Nat.mod_eq_of_lt hsmall]

theorem exec_bufDraw {i : Instr} {s t : State} (h : exec i s = .next t) : t.bufDraw = s.bufDraw := by
  rcases exec_next_cases h with ⟨x, rfl⟩ | ⟨out, -, -, rfl⟩
  · rfl
  · rw [registersAfter_frame]; rfl

/-- A byte outside the `OUTLEN` bytes from `DST` on reads as before. -/
theorem exec_bufByte_outside {i : Instr} {s t : State} (h : exec i s = .next t) {a : Nat}
    (ha : a < s.dst.toNat ∨ s.dst.toNat + t.outlen.toNat ≤ a) : t.bufByte a = s.bufByte a := by
  obtain ⟨out, hbuf, hlen, -, -⟩ := exec_writes_buf h
  rw [hlen] at ha
  rw [State.bufByte, State.bufByte, hbuf, exec_bufDraw h, find?_writeBytes_outside _ _ _ _ ha]

/-- A command without a destination leaves every byte. -/
theorem exec_bufByte_of_maxOut_zero {i : Instr} {s t : State} (h : exec i s = .next t) (hz : maxOut i s = 0) (a : Nat) :
    t.bufByte a = s.bufByte a := by
  obtain ⟨out, -, hlen, hle, -⟩ := exec_writes_buf h
  exact exec_bufByte_outside h (by omega)

/-- A field that an exception and the effect leave as it is, `exec` leaves as it is. -/
theorem exec_keeps_result {α : Type} (field : State → α) {i : Instr} {s t : State} (h : exec i s = .next t)
    (hexc : ∀ x, field (s.takeException x) = field s)
    (hok : ∀ out, field ((registersAfter i s).deliver out).succeed = field s) : field t = field s := by
  rcases exec_next_cases h with ⟨x, rfl⟩ | ⟨out, -, -, rfl⟩
  · exact hexc x
  · exact hok out

/-- Settles O13: an exception writes no result register, an effect only those of `registersAfter`; the bytes of `BUF`
that change are the output's. -/
theorem resultRegistersAreWrittenOnlyByTheirInstructions :
    Obligations.ResultRegistersAreWrittenOnlyByTheirInstructions := by
  intro i s t h
  refine ⟨fun hupd hcmp hcmpi => ?_, fun hinit hnext => ?_, fun hnext => ?_, fun hi a => ?_,
    fun a ha => exec_bufByte_outside h ha⟩
  · obtain ⟨hhash, hprior⟩ := registersAfter_hash_prior s hupd hcmp hcmpi
    exact ⟨exec_keeps_result State.hash h (fun _ => rfl) fun _ => hhash,
      exec_keeps_result State.prior h (fun _ => rfl) fun _ => hprior⟩
  · exact exec_keeps_result State.cnt h (fun _ => rfl) fun _ => registersAfter_cnt s hinit hnext
  · exact exec_keeps_result State.ksb h (fun _ => rfl) fun _ => registersAfter_ksb s hnext
  · have hz : maxOut i s = 0 := by rcases hi with rfl | rfl | rfl <;> rfl
    exact exec_bufByte_of_maxOut_zero h hz a

end Sys2Proof.Proofs
end

section
/-! Bus transactions as steps, and what a write to each register leaves (20_memory.md R72, R73; 10_state.md R20, R41;
60_exceptions.md R238, R244). Settles the reads of R20's map, the writes to `STATUS` and to the plain registers. -/

namespace Sys2Proof.Proofs

open Sys2Proof Sys2Proof.Machine Sys2Proof.Laws

/-! ### A transaction as a step -/

/-- A well-formed read at the head of the agenda (R72). -/
theorem step_read {s : State} {off : Nat} {tg : Target} {rest : List Event} (h : s.agenda = .bus (.read off 32) :: rest)
    (hr : s.rstAsserted = false) (ht : Target.ofOffset off = some tg) :
    step s = .next ({ s with agenda := rest }.hostReadTarget tg) := by
  rw [step_cons h, handleEvent, transact_read (s := { s with agenda := rest }) hr ht]

/-- A well-formed write at the head of the agenda (R73). -/
theorem step_write {s : State} {off : Nat} {v : Word} {tg : Target} {rest : List Event}
    (h : s.agenda = .bus (.write off 32 v) :: rest) (hr : s.rstAsserted = false) (ht : Target.ofOffset off = some tg) :
    step s = .next (({ s with agenda := rest }.writeTarget v tg).respond (some .okWrite)) := by
  rw [step_cons h, handleEvent, transact_write (s := { s with agenda := rest }) hr v ht]

/-! ### Reads (R72, R275) -/

theorem hostReadTarget_unspecified {s : State} {tg : Target} (hb : s.status.busy = true)
    (hu : unspecifiedWhileBusy tg = true) : s.hostReadTarget tg =
      { s with draws := s.draws + 1, response := some (.okRead (Config.freeWord s.draws)) } := by
  simp [State.hostReadTarget, hb, hu]

theorem hostReadTarget_exact {s : State} {tg : Target} (h : s.status.busy = false ∨ unspecifiedWhileBusy tg = false) :
    s.hostReadTarget tg = s.respond (some (.okRead (s.readTarget tg))) := by
  rcases h with h | h <;> simp [State.hostReadTarget, h]

theorem readReg_withAgenda (s : State) (rest : List Event) (r : Reg) :
    ({ s with agenda := rest } : State).readReg r = s.readReg r := by
  cases r <;> rfl

theorem readTarget_withAgenda (s : State) (rest : List Event) (tg : Target) :
    ({ s with agenda := rest } : State).readTarget tg = s.readTarget tg := by
  cases tg with
  | reg r => exact readReg_withAgenda s rest r
  | window a => exact congrArg wordLe (memRead_congr rfl rfl 4 a)

theorem step_read_unspecified {s : State} {off : Nat} {tg : Target} {rest : List Event}
    (h : s.agenda = .bus (.read off 32) :: rest) (hr : s.rstAsserted = false) (ht : Target.ofOffset off = some tg)
    (hb : s.status.busy = true) (hu : unspecifiedWhileBusy tg = true) :
    step s = .next { s with
      agenda := rest
      draws := s.draws + 1
      response := some (.okRead (Config.freeWord s.draws)) } := by
  rw [step_read h hr ht, hostReadTarget_unspecified (s := { s with agenda := rest }) hb hu]

theorem step_read_exact {s : State} {off : Nat} {tg : Target} {rest : List Event}
    (h : s.agenda = .bus (.read off 32) :: rest) (hr : s.rstAsserted = false) (ht : Target.ofOffset off = some tg)
    (hx : s.status.busy = false ∨ unspecifiedWhileBusy tg = false) :
    step s = .next { s with agenda := rest, response := some (.okRead (s.readTarget tg)) } := by
  rw [step_read h hr ht, hostReadTarget_exact (s := { s with agenda := rest }) hx, readTarget_withAgenda]
  rfl

/-- The targets of R275 are those that the model draws for. -/
theorem unspecifiedRow_iff (tg : Target) : UnspecifiedRow tg ↔ unspecifiedWhileBusy tg = true := by
  cases tg with
  | window a => simp [UnspecifiedRow, unspecifiedWhileBusy]
  | reg r => cases r <;> simp [UnspecifiedRow, unspecifiedWhileBusy]

/-- R20's map of the exact reads is the model's read operation on the registers that R275 leaves out. -/
theorem exactReads_eq (s : State) : exactReads s =
    (Reg.all.filter fun r => !unspecifiedWhileBusy (.reg r)).map fun r => (r.offset, s.readReg r) := rfl

/-- R20's map of the result registers is the model's read operation on the registers of R275. -/
theorem resultReads_eq (s : State) : resultReads s =
    (Reg.all.filter fun r => unspecifiedWhileBusy (.reg r)).map fun r => (r.offset, s.readReg r) := rfl

theorem mem_exactReads {s : State} {off : Nat} {w : Word} (h : (off, w) ∈ exactReads s) :
    ∃ r : Reg, Target.ofOffset off = some (.reg r) ∧ unspecifiedWhileBusy (.reg r) = false ∧
      s.readTarget (.reg r) = w := by
  rw [exactReads_eq, List.mem_map] at h
  obtain ⟨r, hr, heq⟩ := h
  cases heq
  exact ⟨r, ofOffset_offset r, by simpa using (List.mem_filter.1 hr).2, rfl⟩

theorem mem_resultReads {s : State} {off : Nat} {w : Word} (h : (off, w) ∈ resultReads s) :
    ∃ r : Reg, Target.ofOffset off = some (.reg r) ∧ unspecifiedWhileBusy (.reg r) = true ∧
      s.readTarget (.reg r) = w := by
  rw [resultReads_eq, List.mem_map] at h
  obtain ⟨r, hr, heq⟩ := h
  cases heq
  exact ⟨r, ofOffset_offset r, (List.mem_filter.1 hr).2, rfl⟩

/-- Settles O52: each offset of R20's map names its register, and a read of a target is exact unless the block is busy
and R275 lists the target. -/
theorem hostReadReturnsTheTargetOrAFreeWord : Obligations.HostReadReturnsTheTargetOrAFreeWord := by
  refine ⟨fun s off w rest h hr hmem => ?_, fun s off w rest h hr hmem => ?_, fun s off tg rest h hr ht => ?_⟩
  · obtain ⟨r, ht, hu, rfl⟩ := mem_exactReads hmem
    exact step_read_exact h hr ht (.inr hu)
  · obtain ⟨r, ht, hu, rfl⟩ := mem_resultReads hmem
    exact ⟨fun hidle => step_read_exact h hr ht (.inl hidle), fun hbusy => step_read_unspecified h hr ht hbusy hu⟩
  · rw [unspecifiedRow_iff, Bool.not_eq_true]
    exact ⟨step_read_unspecified h hr ht, step_read_exact h hr ht⟩

/-! ### Writes (R73, R244) -/

theorem writeTarget_performed {s : State} {tg : Target} (v : Word) (hro : readOnly tg = false)
    (h : s.status.busy = false ∨ writableWhileBusy tg = true) : s.writeTarget v tg = s.storeTarget v tg := by
  rcases h with h | h <;> simp [State.writeTarget, hro, h]

/-- What the filter of R244 makes of a write: ignored, discarded with `WRBUSY`, or performed. -/
theorem writeTarget_cases (s : State) (v : Word) (tg : Target) :
    s.writeTarget v tg = s ∨ s.writeTarget v tg = { s with status := s.status.writeDiscarded } ∨
    s.writeTarget v tg = s.storeTarget v tg := by
  unfold State.writeTarget
  split
  · exact .inl rfl
  · split
    · exact .inr (.inl rfl)
    · exact .inr (.inr rfl)

theorem writeTarget_status (s : State) (v : Word) : s.writeTarget v (.reg .status) = s.writeStatus v :=
  writeTarget_performed v rfl (.inr rfl)

theorem writeTarget_ctrl (s : State) (v : Word) :
    s.writeTarget v (.reg .ctrl) = if v.getLsbD 0 then softReset s else s :=
  writeTarget_performed v rfl (.inr rfl)

/-- A register write other than to `CTRL`, `STATUS` and `CMD` leaves `STATUS`, `BUF` and the model's own fields. -/
theorem storeTarget_frame {r : Reg} (s : State) (v : Word) (hctrl : r ≠ .ctrl) (hstatus : r ≠ .status)
    (hcmd : r ≠ .cmd) :
    s.storeTarget v (.reg r) = { s.storeTarget v (.reg r) with
      status := s.status
      buf := s.buf
      rstAsserted := s.rstAsserted
      bufDraw := s.bufDraw
      draws := s.draws
      agenda := s.agenda
      response := s.response } := by
  cases r with
  | ctrl => exact absurd rfl hctrl
  | status => exact absurd rfl hstatus
  | cmd => exact absurd rfl hcmd
  | _ => rfl

/-- Settles O55: a write to `STATUS` passes the filter of R244 at any time. -/
theorem statusWriteClearsTheWrittenFlags : Obligations.StatusWriteClearsTheWrittenFlags := by
  intro s v rest h hr
  rw [step_write h hr (ofOffset_offset .status), writeTarget_status]
  rfl

/-! ### The plain registers (R20, R41) -/

theorem plainRegister_iff (r : Reg) :
    PlainRegister r ↔ readOnly (.reg r) = false ∧ writableWhileBusy (.reg r) = false ∧ r ≠ .cmd := by
  cases r <;> simp [PlainRegister, readOnly, writableWhileBusy]

theorem plainRegister_ne {r : Reg} (h : PlainRegister r) : r ≠ .ctrl ∧ r ≠ .status ∧ r ≠ .cmd := by
  obtain ⟨-, hw, hcmd⟩ := (plainRegister_iff r).1 h
  refine ⟨?_, ?_, hcmd⟩
  · rintro rfl; cases hw
  · rintro rfl; cases hw

/-- R20's map of the plain registers is the model's store operation on them. -/
theorem plainWrites_eq (s : State) (v : Word) : plainWrites s v =
    (Reg.all.filter fun r => !readOnly (.reg r) && !writableWhileBusy (.reg r) && r != .cmd).map
      fun r => (r.offset, s.storeTarget v (.reg r)) := rfl

theorem mem_plainWrites {s u : State} {off : Nat} {v : Word} (h : (off, u) ∈ plainWrites s v) :
    ∃ r : Reg, off = r.offset ∧ PlainRegister r ∧ u = s.storeTarget v (.reg r) := by
  rw [plainWrites_eq, List.mem_map] at h
  obtain ⟨r, hr, heq⟩ := h
  cases heq
  exact ⟨r, rfl, (plainRegister_iff r).2 (by simpa [and_assoc] using (List.mem_filter.1 hr).2), rfl⟩

@[simp] theorem quad_get_set (q : Quad) (j k : Fin 4) (w : Word) :
    (q.set j w).get k = if k = j then w else q.get k := by
  fin_cases j <;> fin_cases k <;> rfl

@[simp] theorem hashState_get_set (h : HashState) (j k : Fin 5) (w : Word) :
    (h.set j w).get k = if k = j then w else h.get k := by
  fin_cases j <;> fin_cases k <;> rfl

/-- A plain register reads back what was written, and every other register as before: each register is a field of State
of its own, or a word of its own in a group's field. -/
theorem readReg_storeTarget {r : Reg} (s : State) (v : Word) (h : PlainRegister r) (r' : Reg) :
    (s.storeTarget v (.reg r)).readReg r' = if r' = r then v else s.readReg r' := by
  rcases h with rfl | rfl | rfl | rfl | ⟨j, rfl⟩ | ⟨j, rfl⟩ | rfl | rfl | ⟨j, rfl⟩ | rfl | rfl | rfl | rfl
  all_goals cases r' <;> simp [State.storeTarget, State.readReg]

theorem storeTarget_plain_withAgenda {r : Reg} (s : State) (v : Word) (rest : List Event) (h : PlainRegister r) :
    ({ s with agenda := rest } : State).storeTarget v (.reg r) =
      { s.storeTarget v (.reg r) with agenda := rest } := by
  obtain ⟨hctrl, -, -⟩ := plainRegister_ne h
  cases r with
  | ctrl => exact absurd rfl hctrl
  | _ => rfl

theorem step_write_plain {s : State} {r : Reg} {v : Word} {rest : List Event}
    (h : s.agenda = .bus (.write r.offset 32 v) :: rest) (hr : s.rstAsserted = false) (hidle : s.status.busy = false)
    (hp : PlainRegister r) :
    step s = .next { s.storeTarget v (.reg r) with agenda := rest, response := some .okWrite } := by
  obtain ⟨hro, -, -⟩ := (plainRegister_iff r).1 hp
  rw [step_write h hr (ofOffset_offset r), writeTarget_performed (s := { s with agenda := rest }) v hro (.inl hidle),
    storeTarget_plain_withAgenda s v rest hp]
  rfl

/-- Settles O54: while idle the filter of R244 lets the write through, and it replaces one field of State. -/
theorem plainRegistersReadBackWhatWasWritten : Obligations.PlainRegistersReadBackWhatWasWritten := by
  refine ⟨fun s u off v rest h hr hidle hmem => ?_, fun s r v rest h hr hidle hp => ?_⟩
  · obtain ⟨r, rfl, hp, rfl⟩ := mem_plainWrites hmem
    exact step_write_plain h hr hidle hp
  · have hread (r' : Reg) :
        ({ s.storeTarget v (.reg r) with agenda := rest, response := some .okWrite } : State).readReg r' =
          if r' = r then v else s.readReg r' := by
      rw [← readReg_storeTarget s v hp r']
      cases r' <;> rfl
    obtain ⟨hctrl, hstatus, hcmd⟩ := plainRegister_ne hp
    refine ⟨_, step_write_plain h hr hidle hp, rfl, rfl, ?_, fun r' hne => ?_, fun a => ?_⟩
    · rw [hread, if_pos rfl]
    · rw [hread, if_neg hne]
    · apply bufByte_congr
      · rw [storeTarget_frame s v hctrl hstatus hcmd]
      · rw [storeTarget_frame s v hctrl hstatus hcmd]

end Sys2Proof.Proofs
end

section
/-! The words that registers and register groups read as (10_state.md R24, R25, R30, R42) and the soft reset
(70_reset_and_hazards.md R271, R272). -/

namespace Sys2Proof.Proofs

open Sys2Proof Sys2Proof.Machine Sys2Proof.Laws

/-! ### Byte sequences in registers (R30, R84) -/

theorem leBytes_getElem? : ∀ (k n i : Nat), i < k → (leBytes k n)[i]? = some (BitVec.ofNat 8 (n / 256 ^ i)) := by
  intro k
  induction k with
  | zero => intro n i h; exact absurd h (Nat.not_lt_zero i)
  | succ k ih =>
    intro n i h
    cases i with
    | zero => simp [leBytes]
    | succ i =>
      rw [leBytes, List.getElem?_cons_succ, ih _ _ (by omega), Nat.div_div_eq_div_mul, Nat.pow_succ']

theorem bytesOfWord_getElem? (w : Word) {k : Nat} (h : k < 4) :
    (bytesOfWord w)[k]? = some (w.extractLsb' (8 * k) 8) := by
  rw [bytesOfWord, leBytes_getElem? _ _ _ h]
  congr 1
  apply BitVec.eq_of_toNat_eq
  rw [BitVec.toNat_ofNat, BitVec.extractLsb'_toNat, Nat.shiftRight_eq_div_pow, Nat.pow_mul]

/-- Byte `4 * j + k` of a register group is byte `k` of register `j`. -/
theorem quad_bytes_getElem? (q : Quad) (j : Fin 4) {k : Nat} (hk : k < 4) :
    q.bytes[4 * j.val + k]? = (bytesOfWord (q.get j))[k]? := by
  have first (w : Word) (s : List Byte) : (bytesOfWord w ++ s)[k]? = (bytesOfWord w)[k]? :=
    List.getElem?_append_left (by rw [bytesOfWord_length]; exact hk)
  have later (w : Word) (s : List Byte) (n : Nat) : (bytesOfWord w ++ s)[n + 4]? = s[n]? := by
    rw [List.getElem?_append_right (by rw [bytesOfWord_length]; omega), bytesOfWord_length, Nat.add_sub_cancel]
  rw [Quad.bytes, List.append_assoc, List.append_assoc, Nat.add_comm]
  match j with
  | 0 => exact first _ _
  | 1 => exact (later _ _ k).trans (first _ _)
  | 2 => exact (later _ _ (k + 4)).trans ((later _ _ k).trans (first _ _))
  | 3 => exact (later _ _ (k + 8)).trans ((later _ _ (k + 4)).trans (later _ _ k))

theorem leNat_append (a b : List Byte) : leNat (a ++ b) = leNat a + 256 ^ a.length * leNat b := by
  induction a with
  | nil => simp [leNat]
  | cons x a ih =>
    simp only [List.cons_append, leNat, ih, List.length_cons, Nat.pow_succ']
    ring

@[simp] theorem leNat_bytesOfWord (w : Word) : leNat (bytesOfWord w) = w.toNat := by
  rw [bytesOfWord, leNat_leBytes]
  exact Nat.mod_eq_of_lt w.isLt

@[simp] theorem quad_bytes_length (q : Quad) : q.bytes.length = 16 := by
  simp [Quad.bytes]

/-- A word placed above the low bits of a number: the value of a concatenation. -/
theorem toNat_append_eq {m n : Nat} (x : BitVec m) (y : BitVec n) : (x ++ y).toNat = x.toNat * 2 ^ n + y.toNat := by
  rw [BitVec.toNat_append, ← Nat.shiftLeft_add_eq_or_of_lt y.isLt, Nat.shiftLeft_eq]

theorem leNat_quad_bytes (q : Quad) : leNat q.bytes = q.toBlock.toNat := by
  simp only [Quad.bytes, Quad.toBlock, leNat_append, leNat_bytesOfWord, toNat_append_eq, List.length_append,
    bytesOfWord_length]
  ring

theorem bytesOfBlock_toBlock (q : Quad) : bytesOfBlock q.toBlock = q.bytes := by
  rw [bytesOfBlock, ← leNat_quad_bytes, ← quad_bytes_length q]
  exact leBytes_leNat _

theorem toBlock_quadOfBlock (b : Block) : (quadOfBlock b).toBlock = b := by
  have join (j n : Nat) :
      b.extractLsb' (32 * (j + 1)) n ++ b.extractLsb' (32 * j) 32 = b.extractLsb' (32 * j) (n + 32) :=
    BitVec.extractLsb'_append_extractLsb'_eq_extractLsb' rfl
  calc (quadOfBlock b).toBlock
      = b.extractLsb' 96 32 ++ b.extractLsb' 64 32 ++ b.extractLsb' 32 32 ++ b.extractLsb' 0 32 := rfl
    _ = b.extractLsb' 0 128 := by rw [join 2 32, join 1 64, join 0 96]
    _ = b := BitVec.extractLsb'_eq_self

/-- Settles O47: each register holds four bytes, least significant first, and the block on the port is the same number
as the sequence. -/
theorem byteArrayRegistersPackLittleEndian : Obligations.ByteArrayRegistersPackLittleEndian := by
  refine ⟨fun q i h => ?_, bytesOfBlock_toBlock, fun b => ?_⟩
  · have hk : i % 4 < 4 := Nat.mod_lt i (by decide)
    rw [← bytesOfWord_getElem? _ hk, ← quad_bytes_getElem? q ⟨i / 4, h⟩ hk, Nat.div_add_mod]
  · rw [← bytesOfBlock_toBlock, toBlock_quadOfBlock]

/-! ### `STATUS` and `IEN` (R24, R25) -/

/-- The word of `STATUS`, bit by bit. -/
theorem status_toWord_getLsbD (st : Status) (n : Nat) : st.toWord.getLsbD n =
    if n = 0 then st.busy else if n = 1 then st.done else if n = 2 then st.err else if n = 3 then st.wrbusy
    else if n < 8 then false else st.errcode.getLsbD (n - 8) := by
  simp only [Status.toWord, BitVec.getLsbD_append, BitVec.getLsbD_ofBool]
  match n with
  | 0 | 1 | 2 | 3 => simp
  | n + 4 =>
    rcases Nat.lt_or_ge n 8 with h | h
    · grind
    · have hcode : st.errcode.getLsbD (n - 4) = false := BitVec.getLsbD_of_ge _ _ (by omega)
      simp [show ¬n < 4 by omega, show ¬n - 4 < 4 by omega, show ¬n + 4 < 8 by omega, hcode]

/-- The word of `IEN`, bit by bit. -/
theorem ien_toWord_getLsbD (e : Ien) (n : Nat) : e.toWord.getLsbD n =
    if n = 0 then e.doneIe else if n = 1 then e.errIe else false := by
  simp only [Ien.toWord, BitVec.getLsbD_append, BitVec.getLsbD_ofBool]
  match n with
  | 0 | 1 => simp
  | n + 2 => simp

theorem status_toWord_errcode (st : Status) : st.toWord.extractLsb' 8 4 = st.errcode := by
  apply BitVec.eq_of_getLsbD_eq
  intro i hi
  rw [BitVec.getLsbD_extractLsb', status_toWord_getLsbD, if_neg (by omega), if_neg (by omega), if_neg (by omega),
    if_neg (by omega), if_neg (by omega), Nat.add_sub_cancel_left, decide_eq_true hi, Bool.true_and]

theorem status_toWord_unassigned (st : Status) {n : Nat} (h : 4 ≤ n ∧ n ≤ 7 ∨ 12 ≤ n) :
    st.toWord.getLsbD n = false := by
  rw [status_toWord_getLsbD, if_neg (by omega), if_neg (by omega), if_neg (by omega), if_neg (by omega)]
  split
  · rfl
  · exact BitVec.getLsbD_of_ge _ _ (by omega)

/-- Settles O48: both words are read off bit by bit. -/
theorem statusAndIenReadTheirFields : Obligations.StatusAndIenReadTheirFields := by
  intro st e n
  refine ⟨status_busy_bit st, status_toWord_getLsbD st 1, status_toWord_getLsbD st 2, status_toWord_getLsbD st 3,
    status_toWord_errcode st, status_toWord_unassigned st, ien_toWord_getLsbD e 0, ien_toWord_getLsbD e 1, fun hn => ?_⟩
  rw [ien_toWord_getLsbD, if_neg (by omega), if_neg (by omega)]

/-! ### Reset values (R42) and the soft reset (R271, R272) -/

theorem zeroQuad_get (j : Fin 4) : zeroQuad.get j = 0#32 := by
  fin_cases j <;> rfl

theorem reset_hash_get (j : Fin 5) : State.reset.hash.get j = 0#32 := by
  fin_cases j <;> rfl

/-- Settles O57: `ID` and `CAP` are constants, and every other register holds its reset value 0. -/
theorem registersReadTheirResetValues : Obligations.RegistersReadTheirResetValues := by
  refine ⟨rfl, rfl, fun r hid hcap => ?_⟩
  cases r with
  | id => exact absurd rfl hid
  | cap => exact absurd rfl hcap
  | key j | iv j | ksb j => exact zeroQuad_get j
  | shaH j => exact reset_hash_get j
  | _ => rfl

theorem readReg_resetRegisters (s : State) (r : Reg) : s.resetRegisters.readReg r = State.reset.readReg r := by
  cases r <;> rfl

theorem readReg_respond (s : State) (b : Option BusResponse) (r : Reg) : (s.respond b).readReg r = s.readReg r := by
  cases r <;> rfl

theorem readReg_softReset (s : State) (r : Reg) : (softReset s).readReg r = State.reset.readReg r := by
  unfold softReset
  split
  · exact readReg_resetRegisters _ r
  · exact readReg_resetRegisters s r

theorem softReset_idle {s : State} (h : s.status.busy = false) : softReset s = s.resetRegisters := by
  simp [softReset, h]

theorem softReset_busy {s : State} (h : s.status.busy = true) :
    softReset s = (s.forgetRange s.dst.toNat (abandonedLength s)).resetRegisters := by
  simp [softReset, h]

@[simp] theorem softReset_agenda (s : State) : (softReset s).agenda = s.agenda := by
  unfold softReset; split <;> rfl

@[simp] theorem softReset_rstAsserted (s : State) : (softReset s).rstAsserted = s.rstAsserted := by
  unfold softReset; split <;> rfl

@[simp] theorem softReset_bufDraw (s : State) : (softReset s).bufDraw = s.bufDraw := by
  unfold softReset; split <;> rfl

theorem bufByte_softReset_idle {s : State} (h : s.status.busy = false) (a : Nat) :
    (softReset s).bufByte a = s.bufByte a := by
  rw [softReset_idle h]
  exact bufByte_congr rfl rfl a

/-- A soft reset while busy leaves every byte outside the abandoned destination range. -/
theorem bufByte_softReset_busy {s : State} (h : s.status.busy = true) {a : Nat}
    (ha : a < s.dst.toNat ∨ s.dst.toNat + abandonedLength s ≤ a) : (softReset s).bufByte a = s.bufByte a := by
  rw [softReset_busy h, State.bufByte, State.bufByte, resetRegisters_buf, forgetRange_buf, resetRegisters_bufDraw,
    forgetRange_bufDraw, find?_writeBytes_outside _ _ _ _ (by rwa [freeBytes_length])]

theorem abandonedLength_of_raising {s : State} (h : ∀ i, decode s.cmd = .ok i → operandCheck i s ≠ none) :
    abandonedLength s = 0 := by
  unfold abandonedLength
  split
  · rfl
  · next i hi =>
    split
    · rfl
    · next hcheck => exact absurd hcheck (h i hi)

theorem abandonedLength_of_passing {s : State} {i : Instr} (hi : decode s.cmd = .ok i)
    (hcheck : operandCheck i s = none) : abandonedLength s = maxOut i s := by
  simp [abandonedLength, hi, hcheck]

theorem operandCheck_withAgenda (i : Instr) (s : State) (rest : List Event) :
    operandCheck i { s with agenda := rest } = operandCheck i s := by
  cases i <;> rfl

theorem maxOut_withAgenda (i : Instr) (s : State) (rest : List Event) :
    maxOut i { s with agenda := rest } = maxOut i s := by
  cases i <;> rfl

theorem abandonedLength_withAgenda (s : State) (rest : List Event) :
    abandonedLength { s with agenda := rest } = abandonedLength s := by
  simp only [abandonedLength, operandCheck_withAgenda, maxOut_withAgenda]

/-- Settles O58: a write of 1 to bit 0 of `CTRL` is the soft reset at any time, and the range that it makes unspecified
is `MAXOUT` bytes from `DST`, or empty. -/
theorem softResetClearsRegistersAndKeepsBuf : Obligations.SoftResetClearsRegistersAndKeepsBuf := by
  intro s v rest h hr
  rw [step_write h hr (ofOffset_offset .ctrl), writeTarget_ctrl]
  refine ⟨fun h0 => by rw [h0]; rfl, fun h1 => ?_⟩
  rw [h1, if_pos rfl]
  have outside (hbusy : s.status.busy = true) {a : Nat}
      (ha : a < s.dst.toNat ∨ s.dst.toNat + abandonedLength s ≤ a) :
      (softReset { s with agenda := rest }).bufByte a = s.bufByte a :=
    bufByte_softReset_busy (s := { s with agenda := rest }) hbusy (by rwa [abandonedLength_withAgenda])
  refine ⟨_, rfl, softReset_agenda _, rfl, (softReset_rstAsserted _).trans hr, fun r => ?_, fun hidle a => ?_,
    fun hbusy hraise a => ?_, fun i hbusy hi hcheck a ha => ?_⟩
  · rw [readReg_respond, readReg_softReset]
  · exact bufByte_softReset_idle (s := { s with agenda := rest }) hidle a
  · exact outside hbusy (by rw [abandonedLength_of_raising hraise]; omega)
  · exact outside hbusy (by rwa [abandonedLength_of_passing hi hcheck])

end Sys2Proof.Proofs
end

section
/-! The invariant of the machine (10_state.md R39, R42; 60_exceptions.md R230, R234 to R236; 70_reset_and_hazards.md
R270): it holds after reset, and the engine, the bus and the reset input each keep it. -/

namespace Sys2Proof.Proofs

open Sys2Proof Sys2Proof.Machine Sys2Proof.Laws

/-! ### The part of the invariant about `STATUS` -/

/-- `STATUS` as the invariant wants it: `ERRCODE` a code of R230, not 0 while `ERR` is 1, and a pending command with
`DONE`, `ERR` and `ERRCODE` clear. -/
def StatusConsistent (st : Status) : Prop :=
  st.errcode.toNat ≤ 6 ∧ (st.err = true → st.errcode ≠ 0#4) ∧
  (st.busy = true → st.done = false ∧ st.err = false ∧ st.errcode = 0#4)

theorem inv_iff (s : State) : s.Inv ↔
    s.buf.wf ∧ StatusConsistent s.status ∧ (s.rstAsserted = true → s.resetRegisters = s) ∧ s.bufDraw < s.draws := by
  simp only [State.Inv, StatusConsistent, and_assoc]

theorem exc_code_bounds (x : Exc) : x.code.toNat ≤ 6 ∧ x.code ≠ 0#4 := by
  cases x <;> decide

theorem statusConsistent_accepted (st : Status) : StatusConsistent st.accepted := by
  simp [StatusConsistent]

theorem statusConsistent_succeeded (st : Status) : StatusConsistent st.succeeded := by
  simp [StatusConsistent]

theorem statusConsistent_failed (st : Status) (x : Exc) : StatusConsistent (st.failed x) := by
  simp [StatusConsistent, exc_code_bounds x]

theorem statusConsistent_reset : StatusConsistent State.reset.status := by
  simp [StatusConsistent, State.reset]

theorem statusConsistent_writeDiscarded {st : Status} (h : StatusConsistent st) :
    StatusConsistent st.writeDiscarded := h

/-- Clearing `DONE` or `ERR` cannot break what is said of them. -/
theorem statusConsistent_clearedBy {st : Status} (h : StatusConsistent st) (v : Word) :
    StatusConsistent (st.clearedBy v) := by
  obtain ⟨hcode, herr, hbusy⟩ := h
  refine ⟨hcode, fun he => herr (Bool.and_eq_true_iff.1 he).1, fun hb => ?_⟩
  obtain ⟨hdone, herr0, hcode0⟩ := hbusy hb
  exact ⟨by rw [clearedBy_done, hdone]; rfl, by rw [clearedBy_err, herr0]; rfl, hcode0⟩

/-! ### The reset input -/

/-- While the reset input is asserted no command is pending. -/
theorem inv_busy_released {s : State} (h : s.Inv) (hb : s.status.busy = true) : s.rstAsserted = false := by
  obtain ⟨-, -, hrst, -⟩ := (inv_iff s).1 h
  by_contra hr
  rw [Bool.not_eq_false] at hr
  rw [← hrst hr] at hb
  cases hb

/-- Off the reset input the invariant is about `BUF`, `STATUS` and the draws only. -/
theorem inv_of_released {s : State} (hr : s.rstAsserted = false) (hbuf : s.buf.wf) (hst : StatusConsistent s.status)
    (hd : s.bufDraw < s.draws) : s.Inv :=
  (inv_iff s).2 ⟨hbuf, hst, fun h => absurd h (by simp [hr]), hd⟩

/-- The agenda, the response and a later count of draws are free. -/
theorem inv_withOutside {s : State} (h : s.Inv) (agenda : List Event) (response : Option BusResponse) {draws : Nat}
    (hd : s.draws ≤ draws) : ({ s with agenda := agenda, response := response, draws := draws } : State).Inv := by
  obtain ⟨hbuf, hst, hrst, hdraw⟩ := (inv_iff s).1 h
  refine (inv_iff _).2 ⟨hbuf, hst, fun hr => ?_, Nat.lt_of_lt_of_le hdraw hd⟩
  exact congrArg (fun u : State => { u with agenda := agenda, response := response, draws := draws }) (hrst hr)

theorem inv_withAgenda {s : State} (h : s.Inv) (agenda : List Event) : ({ s with agenda := agenda } : State).Inv :=
  inv_withOutside h agenda s.response (Nat.le_refl _)

theorem inv_respond {s : State} (h : s.Inv) (r : Option BusResponse) : (s.respond r).Inv :=
  inv_withOutside h s.agenda r (Nat.le_refl _)

/-- R270: at the assertion the registers take their reset values and `BUF` a fresh draw. -/
theorem inv_hardwareReset (s : State) : (hardwareReset s).Inv :=
  (inv_iff _).2 ⟨wf_nil, statusConsistent_reset, fun _ => rfl, Nat.lt_succ_self _⟩

theorem inv_releaseReset {s : State} (h : s.Inv) : (releaseReset s).Inv := by
  obtain ⟨hbuf, -, -, hdraw⟩ := (inv_iff s).1 h
  exact inv_of_released rfl hbuf statusConsistent_reset hdraw

/-! ### The engine -/

/-- Writing bytes that fit the buffer, or none at all, keeps its canonical form. -/
theorem wf_writeBytes_of_fits {m : Memory} {a : Nat} {vs : List Byte} (hm : m.wf)
    (h : vs.length = 0 ∨ a + vs.length ≤ Config.bufSize) : (m.writeBytes a vs).wf := by
  rcases h with h | h
  · rw [List.length_eq_zero_iff.1 h]; exact hm
  · exact wf_writeBytes vs m a hm h

theorem inv_takeException {s : State} (h : s.Inv) (hr : s.rstAsserted = false) (x : Exc) : (s.takeException x).Inv := by
  obtain ⟨hbuf, -, -, hdraw⟩ := (inv_iff s).1 h
  exact inv_of_released hr hbuf (statusConsistent_failed _ x) hdraw

/-- `exec` leaves `STATUS` as at a completion, and the model's own fields as they are. -/
theorem exec_status_own {i : Instr} {s t : State} (h : exec i s = .next t) :
    StatusConsistent t.status ∧ t.rstAsserted = s.rstAsserted ∧ t.draws = s.draws := by
  rcases exec_next_cases h with ⟨x, rfl⟩ | ⟨out, -, -, rfl⟩
  · exact ⟨statusConsistent_failed _ x, rfl, rfl⟩
  · refine ⟨statusConsistent_succeeded _, ?_, ?_⟩
    · rw [registersAfter_frame]; rfl
    · rw [registersAfter_frame]; rfl

theorem inv_exec {i : Instr} {s t : State} (hs : s.Inv) (hr : s.rstAsserted = false) (h : exec i s = .next t) :
    t.Inv := by
  obtain ⟨hbuf, -, -, hdraw⟩ := (inv_iff s).1 hs
  obtain ⟨out, hout, -, -, hfits⟩ := exec_writes_buf h
  obtain ⟨hst, hrst, hdraws⟩ := exec_status_own h
  refine inv_of_released (hrst.trans hr) ?_ hst ?_
  · rw [hout]; exact wf_writeBytes_of_fits hbuf hfits
  · rwa [exec_bufDraw h, hdraws]

theorem inv_engineTurn {s t : State} (hs : s.Inv) (h : engineTurn exec s = .next t) : t.Inv := by
  cases hb : s.status.busy with
  | false =>
    rw [engineTurn_idle exec hb] at h
    cases h
    exact hs
  | true =>
    have hr := inv_busy_released hs hb
    cases hd : decode s.cmd with
    | ok i =>
      rw [engineTurn_ok exec hb hd] at h
      exact inv_exec hs hr h
    | error x =>
      rw [engineTurn_error exec hb hd] at h
      cases h
      exact inv_takeException hs hr x

/-! ### The bus -/

/-- The range that a soft reset makes unspecified lies in the buffer, or is empty (R79, R272). -/
theorem abandonedLength_fits (s : State) :
    abandonedLength s = 0 ∨ s.dst.toNat + abandonedLength s ≤ Config.bufSize := by
  by_cases h : ∃ i, decode s.cmd = .ok i ∧ operandCheck i s = none
  · obtain ⟨i, hi, hcheck⟩ := h
    rw [abandonedLength_of_passing hi hcheck]
    exact maxOut_fits hcheck
  · exact .inl (abandonedLength_of_raising fun i hi hcheck => h ⟨i, hi, hcheck⟩)

theorem inv_softReset {s : State} (h : s.Inv) (hr : s.rstAsserted = false) : (softReset s).Inv := by
  obtain ⟨hbuf, -, -, hdraw⟩ := (inv_iff s).1 h
  cases hb : s.status.busy with
  | false =>
    rw [softReset_idle hb]
    exact inv_of_released hr hbuf statusConsistent_reset hdraw
  | true =>
    rw [softReset_busy hb]
    refine inv_of_released hr ?_ statusConsistent_reset (Nat.lt_succ_of_lt hdraw)
    exact wf_writeBytes_of_fits hbuf (by rw [freeBytes_length]; exact abandonedLength_fits s)

/-- A performed write keeps the invariant; a window target has room for its four bytes. -/
theorem inv_storeTarget {s : State} {tg : Target} (h : s.Inv) (hr : s.rstAsserted = false) (v : Word)
    (hw : ∀ a, tg = .window a → a + 4 ≤ Config.bufSize) : (s.storeTarget v tg).Inv := by
  obtain ⟨hbuf, hst, -, hdraw⟩ := (inv_iff s).1 h
  cases tg with
  | window a =>
    refine inv_of_released hr (wf_writeBytes _ _ a hbuf ?_) hst hdraw
    rw [bytesOfWord_length]
    exact hw a rfl
  | reg r =>
    cases r with
    | ctrl =>
      rw [State.storeTarget]
      split
      · exact inv_softReset h hr
      · exact h
    | status => exact inv_of_released hr hbuf (statusConsistent_clearedBy hst v) hdraw
    | cmd => exact inv_of_released hr hbuf (statusConsistent_accepted _) hdraw
    | _ => exact inv_of_released hr hbuf hst hdraw

theorem inv_writeTarget {s : State} {tg : Target} (h : s.Inv) (hr : s.rstAsserted = false) (v : Word)
    (hw : ∀ a, tg = .window a → a + 4 ≤ Config.bufSize) : (s.writeTarget v tg).Inv := by
  rcases writeTarget_cases s v tg with heq | heq | heq <;> rw [heq]
  · exact h
  · obtain ⟨hbuf, hst, -, hdraw⟩ := (inv_iff s).1 h
    exact inv_of_released hr hbuf (statusConsistent_writeDiscarded hst) hdraw
  · exact inv_storeTarget h hr v hw

theorem inv_hostReadTarget {s : State} (h : s.Inv) (tg : Target) : (s.hostReadTarget tg).Inv := by
  unfold State.hostReadTarget
  split
  · exact inv_withOutside h s.agenda _ (Nat.le_succ _)
  · exact inv_respond h _

theorem accessTarget_window {off width a : Nat} (h : accessTarget off width = some (.window a)) :
    a + 4 ≤ Config.bufSize := by
  unfold accessTarget at h
  split at h
  · exact window_inside h
  · cases h

theorem inv_transact {s : State} (h : s.Inv) (tr : Transaction) : (s.transact tr).Inv := by
  unfold State.transact
  split
  · exact inv_respond h none
  · next hr =>
    rw [Bool.not_eq_true] at hr
    cases tr with
    | read off width =>
      simp only [State.hostRead]
      split
      · exact inv_respond h _
      · next tg _ => exact inv_hostReadTarget h tg
    | write off width v =>
      simp only [State.hostWrite]
      split
      · exact inv_respond h _
      · next tg htg =>
        exact inv_respond (inv_writeTarget h hr v fun a ha => accessTarget_window (htg.trans (congrArg some ha))) _

theorem inv_waitRead {s : State} (h : s.Inv) (n : Nat) : (s.waitRead n).Inv := by
  rw [State.waitRead, keepWaiting_frame]
  exact inv_withAgenda (inv_transact h _) _

/-! ### Reset and every step -/

/-- Settles O9: nothing is known of `BUF`, `STATUS` is clear, and draw 0 is before draw 1 (log entry 6). -/
theorem resetStateSatisfiesTheInvariant : Obligations.ResetStateSatisfiesTheInvariant :=
  inv_of_released rfl wf_nil statusConsistent_reset Nat.zero_lt_one

/-- Settles O10: what a step can be, one case for each kind of event. -/
theorem everyStepKeepsTheInvariant : Obligations.EveryStepKeepsTheInvariant := by
  intro s t hs h
  rcases step_cases s with ⟨-, hstep⟩ | ⟨rest, -, hstep⟩ | ⟨tr, rest, -, hstep⟩ | ⟨rest, -, hstep⟩ |
    ⟨rest, -, hstep⟩ | ⟨n, rest, -, hstep⟩ <;> rw [hstep] at h
  · exact inv_engineTurn hs h
  · exact inv_engineTurn (inv_withAgenda hs rest) h
  · cases h
    exact inv_transact (inv_withAgenda hs rest) tr
  · cases h
    exact inv_hardwareReset _
  · cases h
    exact inv_releaseReset (inv_withAgenda hs rest)
  · cases h
    exact inv_waitRead (inv_withAgenda hs rest) n

end Sys2Proof.Proofs
end

section
/-! Which bus accesses are ill formed, what a read leaves unchanged, and the `BUF` window word by word (20_memory.md R71
to R78; 30_encoding.md R107, R109). Settles `BusError`, the frame of a read, and the bytes of `MemRead`, `RDBUF` and the
window. -/

namespace Sys2Proof.Proofs

open Sys2Proof Sys2Proof.Machine Sys2Proof.Laws

/-! ### The mapped offsets (R71, R74) -/

/-- R20's table from top to bottom: every word below 0x098 but the words 0x02C and 0x084. -/
theorem reg_all_offsets :
    Reg.all.map Reg.offset = ((List.range 38).filter fun k => k != 11 && k != 33).map (4 * ·) := rfl

theorem exists_reg_at_iff (off : Nat) :
    (∃ r ∈ Reg.all, r.offset = off) ↔ off % 4 = 0 ∧ off < 0x098 ∧ off ≠ 0x02C ∧ off ≠ 0x084 := by
  rw [← List.mem_map, reg_all_offsets]
  simp only [List.mem_map, List.mem_filter, List.mem_range, Bool.and_eq_true, bne_iff_ne]
  constructor
  · rintro ⟨k, ⟨hk, hk11, hk33⟩, rfl⟩
    omega
  · rintro ⟨hal, hlt, h1, h2⟩
    exact ⟨off / 4, by omega, by omega⟩

/-- Below the window an offset is unmapped where no register of R20 stands. -/
theorem ofOffset_register_none_iff {off : Nat} (hal : off % 4 = 0) (hlow : off < 0x1000) :
    Target.ofOffset off = none ↔ ¬∃ r ∈ Reg.all, r.offset = off := by
  have hbase : ¬windowBase ≤ off := Nat.not_le.2 hlow
  simp [Target.ofOffset, hal, hbase]

theorem ofOffset_window {a : Nat} (hal : a % 4 = 0) (hin : a + 4 ≤ 4096) :
    Target.ofOffset (0x1000 + a) = some (.window a) := by
  have hal' : (0x1000 + a) % 4 = 0 := by omega
  have hlow : windowBase ≤ 0x1000 + a := Nat.le_add_right _ a
  have hhigh : 0x1000 + a < windowBase + Config.bufSize := Nat.add_lt_add_left (by omega : a < 4096) _
  have hsub : 0x1000 + a - windowBase = a := Nat.add_sub_cancel_left _ a
  simp [Target.ofOffset, hal', hlow, hhigh, hsub]

theorem ofOffset_above {off : Nat} (h : 0x1FFF < off) : Target.ofOffset off = none := by
  have hlow : windowBase ≤ off := (by omega : 0x1000 ≤ off)
  have hhigh : ¬off < windowBase + Config.bufSize := (by omega : ¬off < 0x1000 + 4096)
  simp [Target.ofOffset, hlow, hhigh]

/-- R74's list for an access of 32 bits. -/
theorem ofOffset_none_iff (off : Nat) : Target.ofOffset off = none ↔ IllFormedAccess off 32 := by
  by_cases hal : off % 4 = 0
  · rcases Nat.lt_or_ge off 0x1000 with hlow | hwin
    · rw [ofOffset_register_none_iff hal hlow, exists_reg_at_iff]
      omega
    · rcases Nat.lt_or_ge 0x1FFF off with habove | hinside
      · exact iff_of_true (ofOffset_above habove) (by omega)
      · obtain ⟨a, rfl⟩ := Nat.exists_eq_add_of_le hwin
        rw [ofOffset_window (by omega) (by omega)]
        exact iff_of_false nofun (by omega)
  · simp [Target.ofOffset, IllFormedAccess, hal]

/-- What an access reaches is nothing exactly where R74 lists it. -/
theorem accessTarget_none_iff (off width : Nat) : accessTarget off width = none ↔ IllFormedAccess off width := by
  by_cases hw : width = 32
  · subst hw
    rw [← ofOffset_none_iff, accessTarget, if_pos rfl]
  · simp [accessTarget, IllFormedAccess, hw]

theorem wellFormed_target {off width : Nat} (h : ¬IllFormedAccess off width) :
    width = 32 ∧ ∃ tg, Target.ofOffset off = some tg := by
  have hw : width = 32 := by omega
  subst hw
  rw [← ofOffset_none_iff] at h
  exact ⟨rfl, Option.ne_none_iff_exists'.1 h⟩

/-! ### `BusError` and OK (R72 to R74) -/

theorem transact_illFormed {s : State} {tr : Transaction} {off width : Nat} (hr : s.rstAsserted = false)
    (htr : tr = .read off width ∨ ∃ v, tr = .write off width v) (hill : IllFormedAccess off width) :
    s.transact tr = s.respond (some .busError) := by
  have hnone := (accessTarget_none_iff off width).2 hill
  rcases htr with rfl | ⟨v, rfl⟩
  · simp [State.transact, hr, State.hostRead, hnone]
  · simp [State.transact, hr, State.hostWrite, hnone]

theorem step_illFormed {s : State} {tr : Transaction} {off width : Nat} {rest : List Event}
    (h : s.agenda = .bus tr :: rest) (hr : s.rstAsserted = false)
    (htr : tr = .read off width ∨ ∃ v, tr = .write off width v) (hill : IllFormedAccess off width) :
    step s = .next { s with agenda := rest, response := some .busError } := by
  rw [step_cons h, handleEvent, transact_illFormed (s := { s with agenda := rest }) hr htr hill]
  rfl

/-- A well-formed read records its response, and beside that at most a draw, which an idle block does not make. -/
theorem hostReadTarget_frame (s : State) (tg : Target) : ∃ x d,
    s.hostReadTarget tg = { s with response := some (.okRead x), draws := d } ∧
    (s.status.busy = false → d = s.draws) := by
  cases hb : s.status.busy with
  | false => exact ⟨_, _, hostReadTarget_exact (.inl hb), fun _ => rfl⟩
  | true =>
    cases hu : unspecifiedWhileBusy tg with
    | false => exact ⟨_, _, hostReadTarget_exact (.inr hu), fun _ => rfl⟩
    | true => exact ⟨_, _, hostReadTarget_unspecified hb hu, nofun⟩

/-- Settles O50: an access reaches no target exactly where R74 lists it, and an access that reaches one is answered OK
(R72, R73). -/
theorem busErrorAnswersExactlyTheIllFormedAccesses : Obligations.BusErrorAnswersExactlyTheIllFormedAccesses := by
  intro s off width v rest hr
  refine ⟨fun h => ⟨step_illFormed h hr (.inl rfl), fun hwell => ?_⟩,
    fun h => ⟨step_illFormed h hr (.inr ⟨v, rfl⟩), fun hwell => ?_⟩⟩
  · obtain ⟨rfl, tg, htg⟩ := wellFormed_target hwell
    obtain ⟨x, d, hread, -⟩ := hostReadTarget_frame { s with agenda := rest } tg
    exact ⟨_, x, step_read h hr htg, by rw [hread]⟩
  · obtain ⟨rfl, tg, htg⟩ := wellFormed_target hwell
    exact ⟨_, step_write h hr htg, rfl⟩

/-! ### What a read leaves unchanged (R72, R270) -/

/-- Every read, answered or not, well formed or not. -/
theorem transact_read_frame (s : State) (off width : Nat) : ∃ r d,
    s.transact (.read off width) = { s with response := r, draws := d } ∧
    (s.status.busy = false → d = s.draws) := by
  unfold State.transact
  split
  · exact ⟨none, s.draws, rfl, fun _ => rfl⟩
  · simp only [State.hostRead]
    split
    · exact ⟨some .busError, s.draws, rfl, fun _ => rfl⟩
    · next tg _ =>
      obtain ⟨x, d, hread, hidle⟩ := hostReadTarget_frame s tg
      exact ⟨some (.okRead x), d, hread, hidle⟩

/-- Settles O51: a read replaces at most the response and the count of draws. -/
theorem hostReadsChangeNoState : Obligations.HostReadsChangeNoState := by
  intro s t off width rest h hstep
  obtain ⟨r, d, hread, hidle⟩ := transact_read_frame { s with agenda := rest } off width
  rw [step_cons h, handleEvent, hread] at hstep
  cases hstep
  exact ⟨rfl, hidle⟩

/-! ### `MemRead` and `MemWrite` byte by byte (R78) -/

theorem memRead_getElem? (s : State) (a : Nat) {n i : Nat} (h : i < n) :
    (s.memRead a n)[i]? = some (s.bufByte (a + i)) := by
  have hlen : i < (s.memRead a n).length := by rwa [memRead_length]
  rw [List.getElem?_eq_getElem hlen, memRead_getElem]

/-- The model's own fields do not enter `MemRead`. -/
theorem memRead_withOutside (s : State) (agenda : List Event) (response : Option BusResponse) (a n : Nat) :
    ({ s with agenda := agenda, response := response } : State).memRead a n = s.memRead a n :=
  memRead_congr (s := { s with agenda := agenda, response := response }) (t := s) rfl rfl n a

theorem memRead_take (s : State) (a : Nat) {n m : Nat} (h : n ≤ m) : (s.memRead a m).take n = s.memRead a n := by
  obtain ⟨k, rfl⟩ := Nat.exists_eq_add_of_le h
  rw [memRead_append]
  exact List.take_left' (memRead_length s n a)

theorem bufByte_written_inside {s : State} {m : Memory} {a i : Nat} {vs : List Byte} {b : Byte}
    (h : s.buf = m.writeBytes a vs) (hi : vs[i]? = some b) : s.bufByte (a + i) = b := by
  obtain ⟨hlt, rfl⟩ := List.getElem?_eq_some_iff.1 hi
  rw [State.bufByte, h, find?_writeBytes_inside vs m a i hlt]
  rfl

theorem bufByte_written_outside {s t : State} {a b : Nat} {vs : List Byte} (h : t.buf = s.buf.writeBytes a vs)
    (hd : t.bufDraw = s.bufDraw) (hb : b < a ∨ a + vs.length ≤ b) : t.bufByte b = s.bufByte b := by
  rw [State.bufByte, State.bufByte, h, hd, find?_writeBytes_outside vs s.buf a b hb]

/-! ### Words of the window (R75, R76) -/

theorem wordLe_toNat {bs : List Byte} (h : bs.length = 4) : (wordLe bs).toNat = leNat bs := by
  have hlt := leNat_lt bs
  rw [h] at hlt
  exact Nat.mod_eq_of_lt hlt

theorem bytesOfWord_wordLe {bs : List Byte} (h : bs.length = 4) : bytesOfWord (wordLe bs) = bs := by
  rw [bytesOfWord, wordLe_toNat h, ← h]
  exact leBytes_leNat bs

theorem leNat_memRead_four (s : State) (a : Nat) : leNat (s.memRead a 4) =
    (s.bufByte a).toNat + 2 ^ 8 * (s.bufByte (a + 1)).toNat + 2 ^ 16 * (s.bufByte (a + 2)).toNat +
      2 ^ 24 * (s.bufByte (a + 3)).toNat := by
  simp only [State.memRead, leNat]
  ring

theorem step_read_window {s : State} {a : Nat} {rest : List Event} (hal : a % 4 = 0) (hin : a + 4 ≤ 4096)
    (hr : s.rstAsserted = false) (hidle : s.status.busy = false)
    (h : s.agenda = .bus (.read (0x1000 + a) 32) :: rest) :
    step s = .next { s with agenda := rest, response := some (.okRead (wordLe (s.memRead a 4))) } :=
  step_read_exact h hr (ofOffset_window hal hin) (.inl hidle)

theorem step_write_window {s : State} {a : Nat} {v : Word} {rest : List Event} (hal : a % 4 = 0)
    (hin : a + 4 ≤ 4096) (hr : s.rstAsserted = false) (hidle : s.status.busy = false)
    (h : s.agenda = .bus (.write (0x1000 + a) 32 v) :: rest) :
    step s = .next { s with
      agenda := rest
      response := some .okWrite
      buf := s.buf.writeBytes a (bytesOfWord v) } := by
  rw [step_write h hr (ofOffset_window hal hin),
    writeTarget_performed (s := { s with agenda := rest }) v rfl (.inl hidle)]
  rfl

/-! ### `RDBUF` (R109) -/

theorem scheduled_nil_bus (ts : List Transaction) : scheduled [] (ts.map .bus) = ts.map .bus := by
  induction ts with
  | nil => rfl
  | cons t ts ih => simpa [scheduled, slotEvents] using ih

/-- Without slots an `RDBUF` is its word reads and nothing between them. -/
theorem programEvents_rdBuf (a n : Nat) :
    programEvents [] [.rdBuf a n] = (windowReads a ((n + 3) / 4)).map .bus := by
  rw [programEvents, List.flatMap_singleton, lineOps, scheduled_nil_bus]

theorem valuesRead_succ {s t : State} (k : Nat) (h : step s = .next t) :
    valuesRead (k + 1) s = valueRead s.agenda t.response ++ valuesRead k t := by
  simp [valuesRead, h]

theorem stepTimes_succ {s t : State} (n : Nat) (h : step s = .next t) : stepTimes (n + 1) s = stepTimes n t := by
  simp [stepTimes, h]

/-- `k` word reads of the window return the `4 * k` bytes there and change nothing of the block. -/
theorem windowReads_return_buf : ∀ (k a : Nat) (s : State) (rest : List Event),
    a % 4 = 0 → a + 4 * k ≤ 4096 → s.rstAsserted = false → s.status.busy = false →
    s.agenda = (windowReads a k).map .bus ++ rest →
    (valuesRead k s).flatMap bytesOfWord = s.memRead a (4 * k) ∧
    ∃ r, stepTimes k s = .next { s with agenda := rest, response := r } := by
  intro k
  induction k with
  | zero =>
    intro a s rest _ _ _ _ h
    obtain rfl : s.agenda = rest := h
    exact ⟨rfl, s.response, rfl⟩
  | succ k ih =>
    intro a s rest hal hin hr hidle h
    have hhead : s.agenda = .bus (.read (0x1000 + a) 32) :: ((windowReads (a + 4) k).map .bus ++ rest) := h
    have hstep := step_read_window hal (by omega) hr hidle hhead
    obtain ⟨hvalues, r, hsteps⟩ := ih (a + 4)
      { s with
        agenda := (windowReads (a + 4) k).map .bus ++ rest
        response := some (.okRead (wordLe (s.memRead a 4))) }
      rest (by omega) (by omega) hr hidle rfl
    rw [memRead_withOutside s _ _ (a + 4)] at hvalues
    refine ⟨?_, r, by rw [stepTimes_succ k hstep, hsteps]⟩
    calc (valuesRead (k + 1) s).flatMap bytesOfWord
        = bytesOfWord (wordLe (s.memRead a 4)) ++ s.memRead (a + 4) (4 * k) := by
          rw [valuesRead_succ k hstep, List.flatMap_append, hvalues, hhead]
          simp [valueRead]
      _ = s.memRead a (4 * (k + 1)) := by
          rw [bytesOfWord_wordLe (memRead_length s 4 a), ← memRead_append, Nat.mul_succ, Nat.add_comm]

/-- Settles O53: `MemRead` and `MemWrite` are byte by byte, a word of the window is four such bytes little-endian, and
`RDBUF` is a run of word reads whose last word is cut to the bytes asked for. -/
theorem windowReadsAndWritesFourBytes : Obligations.WindowReadsAndWritesFourBytes := by
  refine ⟨fun s a n => ⟨memRead_length s n a, fun i => memRead_getElem? s a⟩,
    fun s => ⟨source_length s, fun i => memRead_getElem? s _⟩,
    fun s a n rest hal hin hr hidle h => ?_,
    fun s a v rest hal hin hr hidle => ⟨fun h => ?_, fun h => ?_⟩⟩
  · rw [programEvents_rdBuf] at h
    obtain ⟨hvalues, r, hsteps⟩ := windowReads_return_buf _ a s rest hal (by omega) hr hidle h
    refine ⟨?_, _, hsteps, rfl⟩
    rw [rdBufResult, hvalues, memRead_take s a (by omega)]
  · refine ⟨_, step_read_window hal hin hr hidle h, ?_⟩
    rw [wordLe_toNat (memRead_length s 4 a), leNat_memRead_four]
  · refine ⟨_, step_write_window hal hin hr hidle h, rfl, fun i hi => ?_, fun b hb => ?_⟩
    · rw [bufByte_written_inside rfl (bytesOfWord_getElem? v hi), BitVec.extractLsb'_toNat,
        Nat.shiftRight_eq_div_pow]
    · exact bufByte_written_outside rfl rfl (by rwa [bytesOfWord_length])

end Sys2Proof.Proofs
end

section
/-! Command words (30_encoding.md R101 to R106; 41_cbc.md R151). Settles that decode and encode agree and which words
raise which decode exception. -/

namespace Sys2Proof.Proofs

open Sys2Proof Sys2Proof.Machine Sys2Proof.Laws

/-! ### The fields of a command word (R101) -/

theorem formatC_toNat (op : BitVec 8) (mode : BitVec 4) (fl inj : Bool) : (formatC op mode fl inj).toNat =
    2 ^ 13 * inj.toNat + 2 ^ 12 * fl.toNat + 2 ^ 8 * mode.toNat + op.toNat := by
  simp only [formatC, toNat_append_eq, BitVec.toNat_ofBool, BitVec.toNat_ofNat]
  omega

/-- Format `C` loses none of its fields. -/
theorem formatC_injective {op op' : BitVec 8} {mode mode' : BitVec 4} {fl fl' inj inj' : Bool}
    (h : formatC op mode fl inj = formatC op' mode' fl' inj') : op = op' ∧ mode = mode' ∧ fl = fl' ∧ inj = inj' := by
  have hnat := congrArg BitVec.toNat h
  rw [formatC_toNat, formatC_toNat] at hnat
  have bit_ext : ∀ a b : Bool, a.toNat = b.toNat → a = b := by decide
  have hop := op.isLt
  have hop' := op'.isLt
  have hmode := mode.isLt
  have hmode' := mode'.isLt
  have hfl := fl.toNat_lt
  have hfl' := fl'.toNat_lt
  refine ⟨BitVec.eq_of_toNat_eq ?_, BitVec.eq_of_toNat_eq ?_, bit_ext _ _ ?_, bit_ext _ _ ?_⟩ <;> omega

theorem rsvField_formatC (op : BitVec 8) (mode : BitVec 4) (fl inj : Bool) :
    rsvField (formatC op mode fl inj) = 0#18 := by
  have hlt : (formatC op mode fl inj).toNat < 2 ^ 14 := by
    have hop := op.isLt
    have hmode := mode.isLt
    have hfl := fl.toNat_lt
    have hinj := inj.toNat_lt
    rw [formatC_toNat]
    omega
  apply BitVec.eq_of_toNat_eq
  rw [rsvField, BitVec.extractLsb'_toNat, Nat.shiftRight_eq_div_pow, Nat.div_eq_of_lt hlt]
  rfl

/-- A word with `RSV = 0` is format `C` of its other fields. -/
theorem word_eq_formatC {w : Word} (h : rsvField w = 0#18) :
    w = formatC (opField w) (modeField w) (flField w) (injField w) := by
  conv_lhs => rw [word_eq_fields w, h]
  rfl

theorem fields_formatC (op : BitVec 8) (mode : BitVec 4) (fl inj : Bool) :
    opField (formatC op mode fl inj) = op ∧ modeField (formatC op mode fl inj) = mode ∧
      flField (formatC op mode fl inj) = fl ∧ injField (formatC op mode fl inj) = inj :=
  formatC_injective (word_eq_formatC (rsvField_formatC op mode fl inj)).symm

/-! ### The lines of R105 -/

/-- The fields pass lines 2 to 5 of R105: the operation code is assigned, and a field that it does not use is 0. -/
def FieldsLegal (op : BitVec 8) (mode : BitVec 4) (fl inj : Bool) : Prop :=
  op ∈ assignedOps ∧ (isModeOp op = false → mode = 0#4) ∧ (fl = true → op = 0x20#8) ∧ (inj = true → op = 0x22#8)

/-- The word passes lines 1 to 5 of R105. -/
def WordLegal (w : Word) : Prop :=
  rsvField w = 0#18 ∧ FieldsLegal (opField w) (modeField w) (flField w) (injField w)

/-- After line 6 of R105 an assigned operation code always selects an instruction. -/
theorem selectInstr_of_assigned {op : BitVec 8} (h : op ∈ assignedOps) (mode : BitVec 4) (fl inj : Bool) :
    ∃ i, selectInstr op mode fl inj = some i := by
  simp only [assignedOps, List.mem_cons, List.not_mem_nil, or_false] at h
  rcases h with rfl | rfl | rfl | rfl | rfl | rfl | rfl | rfl | rfl <;> exact ⟨_, rfl⟩

/-- Everything that decode can answer (R105): lines 1 to 5 raise `IllegalCommand`, line 6 raises `IllegalMode`, and a
word that passes them selects an instruction. -/
theorem decode_cases (w : Word) :
    (¬WordLegal w ∧ decode w = .error .illegalCommand) ∨
    (WordLegal w ∧ isModeOp (opField w) = true ∧ isMode (modeField w) = false ∧ decode w = .error .illegalMode) ∨
    ∃ i, WordLegal w ∧ (isModeOp (opField w) = true → isMode (modeField w) = true) ∧
      selectInstr (opField w) (modeField w) (flField w) (injField w) = some i ∧ decode w = .ok i := by
  unfold decode
  split
  · next h1 => exact .inl ⟨fun ⟨hrsv, _⟩ => h1 hrsv, rfl⟩
  split
  · next h2 => exact .inl ⟨fun ⟨_, hop, _⟩ => by simp [hop] at h2, rfl⟩
  split
  · next h3 => exact .inl ⟨fun ⟨_, _, hmode, _⟩ => by simp_all, rfl⟩
  split
  · next h4 => exact .inl ⟨fun ⟨_, _, _, hfl, _⟩ => by simp_all, rfl⟩
  split
  · next h5 => exact .inl ⟨fun ⟨_, _, _, _, hinj⟩ => by simp_all, rfl⟩
  next h1 h2 h3 h4 h5 =>
  have hlegal : WordLegal w :=
    ⟨by simpa using h1, by simpa using h2, by simpa using h3, by simpa using h4, by simpa using h5⟩
  split
  · next h6 => exact .inr (.inl ⟨hlegal, by simpa using h6⟩)
  · next h6 =>
    have ⟨_, hop, _⟩ := hlegal
    obtain ⟨i, hi⟩ := selectInstr_of_assigned hop (modeField w) (flField w) (injField w)
    exact .inr (.inr ⟨i, hlegal, by simpa using h6, hi, by rw [hi]⟩)

theorem decode_ok_cases {w : Word} {i : Instr} (h : decode w = .ok i) :
    WordLegal w ∧ (isModeOp (opField w) = true → isMode (modeField w) = true) ∧
      selectInstr (opField w) (modeField w) (flField w) (injField w) = some i := by
  rcases decode_cases w with ⟨-, hw⟩ | ⟨-, -, -, hw⟩ | ⟨j, hlegal, hrec, hsel, hw⟩
  · rw [hw] at h; cases h
  · rw [hw] at h; cases h
  · rw [hw] at h; cases h
    exact ⟨hlegal, hrec, hsel⟩

theorem decode_illegalMode_iff (w : Word) : decode w = .error .illegalMode ↔
    WordLegal w ∧ isModeOp (opField w) = true ∧ isMode (modeField w) = false := by
  rcases decode_cases w with ⟨hillegal, hw⟩ | ⟨hlegal, hop, hmode, hw⟩ | ⟨i, hlegal, hrec, -, hw⟩
  · simp [hw, hillegal]
  · simp [hw, hlegal, hop, hmode]
  · rw [hw]
    exact iff_of_false nofun fun ⟨_, hop, hmode⟩ => by simp [hrec hop] at hmode

theorem decode_illegalCommand_iff (w : Word) : decode w = .error .illegalCommand ↔ ¬WordLegal w := by
  rcases decode_cases w with ⟨hillegal, hw⟩ | ⟨hlegal, -, -, hw⟩ | ⟨i, hlegal, -, -, hw⟩
  · simp [hw, hillegal]
  · simp [hw, hlegal]
  · simp [hw, hlegal]

/-! ### One command word for each instruction (R104) -/

theorem decode_encode (i : Instr) : decode (encode i) = .ok i := by
  cases i
  exacts [DecodesFromItsWord.pkcs7Pad, DecodesFromItsWord.pkcs7Unpad, DecodesFromItsWord.cbcEnc,
    DecodesFromItsWord.cbcDec, DecodesFromItsWord.ctrEnc, DecodesFromItsWord.ctrDec, DecodesFromItsWord.ksInit,
    DecodesFromItsWord.ksNext, DecodesFromItsWord.sha1Pad, DecodesFromItsWord.sha1Padf, DecodesFromItsWord.sha1Upd,
    DecodesFromItsWord.sha1Cmp, DecodesFromItsWord.sha1Cmpi]

theorem isModeOp_iff (op : BitVec 8) : isModeOp op = true ↔ op = 0x10#8 ∨ op = 0x11#8 := by
  simp [isModeOp]

theorem isMode_iff (mode : BitVec 4) : isMode mode = true ↔ mode = 1#4 ∨ mode = 2#4 := by
  simp [isMode]

/-- The mode-construction layer uses neither `FL` nor `INJ`. -/
theorem flags_of_modeOp {op : BitVec 8} {mode : BitVec 4} {fl inj : Bool} (hlegal : FieldsLegal op mode fl inj)
    (hmodeOp : isModeOp op = true) : fl = false ∧ inj = false := by
  obtain ⟨-, -, hfl, hinj⟩ := hlegal
  rcases (isModeOp_iff op).1 hmodeOp with rfl | rfl
  · exact ⟨by simpa using hfl, by simpa using hinj⟩
  · exact ⟨by simpa using hfl, by simpa using hinj⟩

/-- R102 to R104: `ENC` and `DEC` select by `MODE`, 0x20 by `FL`, 0x22 by `INJ`, the other operation codes by nothing
else, and the fields that do not select are 0. -/
theorem formatC_eq_encode {op : BitVec 8} {mode : BitVec 4} {fl inj : Bool} {i : Instr}
    (hlegal : FieldsLegal op mode fl inj) (hrec : isModeOp op = true → isMode mode = true)
    (hsel : selectInstr op mode fl inj = some i) : formatC op mode fl inj = encode i := by
  have ⟨hop, hmode, hfl, hinj⟩ := hlegal
  by_cases hm : isModeOp op = true
  · obtain ⟨rfl, rfl⟩ := flags_of_modeOp hlegal hm
    rcases (isModeOp_iff op).1 hm with rfl | rfl <;> rcases (isMode_iff mode).1 (hrec rfl) with rfl | rfl <;>
      (cases hsel; rfl)
  obtain rfl := hmode (by simpa using hm)
  by_cases h20 : op = 0x20#8
  · subst h20
    obtain rfl : inj = false := by simpa using hinj
    cases fl <;> (cases hsel; rfl)
  obtain rfl : fl = false := by simpa [h20] using hfl
  by_cases h22 : op = 0x22#8
  · subst h22
    cases inj <;> (cases hsel; rfl)
  obtain rfl : inj = false := by simpa [h22] using hinj
  rw [isModeOp_iff, not_or] at hm
  have hop' : op = 0x01#8 ∨ op = 0x02#8 ∨ op = 0x18#8 ∨ op = 0x19#8 ∨ op = 0x21#8 := by
    simpa [assignedOps, hm, h20, h22] using hop
  rcases hop' with rfl | rfl | rfl | rfl | rfl <;> (cases hsel; rfl)

/-- Settles O1: encode's words are the table's, and a word that decodes to an instruction has the fields of the
instruction's word and `RSV = 0`, so it is that word. -/
theorem eachInstructionHasExactlyOneCommandWord : Obligations.EachInstructionHasExactlyOneCommandWord := by
  refine ⟨by decide, fun w i => ⟨fun h => ?_, ?_⟩⟩
  · obtain ⟨⟨hrsv, hlegal⟩, hrec, hsel⟩ := decode_ok_cases h
    rw [word_eq_formatC hrsv, formatC_eq_encode hlegal hrec hsel]
  · rintro rfl
    exact decode_encode i

/-! ### The decode exceptions (R105, R106, R151) -/

/-- The word of `MODE.ENC m` and `MODE.DEC m` (R108). -/
theorem formatC_modeWord (op : BitVec 8) (mode : BitVec 4) :
    formatC op mode false false = BitVec.ofNat 32 (op.toNat + 256 * mode.toNat) := by
  have hop := op.isLt
  have hmode := mode.isLt
  apply BitVec.eq_of_toNat_eq
  rw [formatC_toNat, BitVec.toNat_ofNat, Bool.toNat_false]
  omega

theorem isMode_false_iff (mode : BitVec 4) : isMode mode = false ↔ mode.toNat ≠ 1 ∧ mode.toNat ≠ 2 := by
  rw [← Bool.not_eq_true, isMode_iff, not_or, ← BitVec.toNat_inj, ← BitVec.toNat_inj]
  rfl

/-- The words of line 6 of R105: an operation of the mode-construction layer, a selector that is not recognised, and no
other bit. -/
theorem decode_illegalMode_iff_formatC (w : Word) : decode w = .error .illegalMode ↔
    ∃ op mode, isModeOp op = true ∧ isMode mode = false ∧ w = formatC op mode false false := by
  rw [decode_illegalMode_iff]
  constructor
  · rintro ⟨⟨hrsv, hlegal⟩, hop, hmode⟩
    obtain ⟨hfl, hinj⟩ := flags_of_modeOp hlegal hop
    have hw := word_eq_formatC hrsv
    rw [hfl, hinj] at hw
    exact ⟨_, _, hop, hmode, hw⟩
  · rintro ⟨op, mode, hop, hmode, rfl⟩
    obtain ⟨hop', hmode', hfl', hinj'⟩ := fields_formatC op mode false false
    rw [WordLegal, hop', hmode', hfl', hinj']
    have hassigned : op ∈ assignedOps := by rcases (isModeOp_iff op).1 hop with rfl | rfl <;> decide
    exact ⟨⟨rsvField_formatC .., hassigned, fun h => by simp [hop] at h, nofun, nofun⟩, hop, hmode⟩

theorem decode_error_cases {w : Word} {x : Exc} (h : decode w = .error x) :
    x = .illegalMode ∨ x = .illegalCommand := by
  rcases decode_cases w with ⟨-, hw⟩ | ⟨-, -, -, hw⟩ | ⟨i, -, -, -, hw⟩ <;> rw [hw] at h <;> cases h
  · exact .inr rfl
  · exact .inl rfl

/-- Settles O2: `m` is the selector of the word. -/
theorem illegalModeIsRaisedByExactlyTwentyEightWords : Obligations.IllegalModeIsRaisedByExactlyTwentyEightWords := by
  refine ⟨fun w => ?_, fun w x => decode_error_cases⟩
  rw [decode_illegalMode_iff_formatC]
  constructor
  · rintro ⟨op, mode, hop, hmode, rfl⟩
    obtain ⟨h1, h2⟩ := (isMode_false_iff mode).1 hmode
    refine ⟨mode.toNat, Nat.le_of_lt_succ mode.isLt, h1, h2, ?_⟩
    rw [formatC_modeWord]
    rcases (isModeOp_iff op).1 hop with rfl | rfl
    · exact .inl rfl
    · exact .inr rfl
  · rintro ⟨m, hm, h1, h2, hw⟩
    have hmode : (BitVec.ofNat 4 m).toNat = m := Nat.mod_eq_of_lt (Nat.lt_succ_of_le hm)
    have hrec : isMode (BitVec.ofNat 4 m) = false := by
      rw [isMode_false_iff, hmode]
      exact ⟨h1, h2⟩
    rcases hw with rfl | rfl
    · exact ⟨0x10#8, BitVec.ofNat 4 m, rfl, hrec, by rw [formatC_modeWord, hmode]; rfl⟩
    · exact ⟨0x11#8, BitVec.ofNat 4 m, rfl, hrec, by rw [formatC_modeWord, hmode]; rfl⟩

/-- Settles O3: the instructions' words are those of encode; 0x1710 sets `FL`, which `OP` 0x10 does not use, and 0x0710
is the word with the selector 7. -/
theorem writtenOutWordsDecode : Obligations.WrittenOutWordsDecode := by
  refine ⟨decode_encode .pkcs7Pad, decode_encode .cbcDec, decode_encode .ctrEnc, decode_encode .ksNext,
    decode_encode .sha1Padf, decode_encode .sha1Cmpi, ?_, ?_⟩
  · exact (decode_illegalCommand_iff _).2 fun ⟨_, _, _, hfl, _⟩ => absurd (hfl rfl) (by decide)
  · exact (decode_illegalMode_iff_formatC _).2 ⟨0x10#8, 7#4, rfl, rfl, rfl⟩

end Sys2Proof.Proofs
end

section
/-! The engine's turn as a step, and the host's loop `WAIT` (30_encoding.md R105, R109; 60_exceptions.md R230, R235,
R236). Settles the completion of a word that decodes to no instruction, and how a `WAIT` ends. -/

namespace Sys2Proof.Proofs

open Sys2Proof Sys2Proof.Machine Sys2Proof.Laws

/-! ### The engine's turn (R235, R236) -/

/-- With an empty agenda the engine has its turn as well (log entry 2). -/
theorem step_engineTurn {s : State} (h : s.agenda = [] ∨ s.agenda.head? = some .engine) :
    step s = engineTurn exec { s with agenda := s.agenda.tail } := by
  cases hs : s.agenda with
  | nil =>
    have hsame : ({ s with agenda := [] } : State) = s := by rw [← hs]
    rw [step_nil hs, List.tail_nil, hsame]
  | cons e rest =>
    obtain rfl : e = .engine := by simpa [hs] using h
    exact step_engine hs

theorem completedInError_takeException (s : State) (x : Exc) : CompletedInError s (s.takeException x) x.code := rfl

/-- A pending word that decodes to no instruction completes in error with the code of its exception. -/
theorem step_decodeException {s : State} {x : Exc} (hbusy : s.status.busy = true)
    (hturn : s.agenda = [] ∨ s.agenda.head? = some .engine) (hx : decode s.cmd = .error x) :
    ∃ t, step s = .next t ∧ CompletedInError { s with agenda := s.agenda.tail } t x.code :=
  ⟨_, (step_engineTurn hturn).trans (engineTurn_error (s := { s with agenda := s.agenda.tail }) exec hbusy hx),
    completedInError_takeException _ x⟩

/-- Settles O6: the codes of the two decode exceptions are 2 and 3 (R230). -/
theorem stepTakesTheDecodeException : Obligations.StepTakesTheDecodeException := by
  intro s hbusy hturn
  exact ⟨step_decodeException hbusy hturn, step_decodeException hbusy hturn⟩

/-- Every instruction completes (R235, R236), and leaves the host's position and the reset input as they are. -/
theorem exec_completes (i : Instr) (s : State) : ∃ t, exec i s = .next t ∧ t.status.busy = false ∧
    t.status.done = true ∧ t.agenda = s.agenda ∧ t.rstAsserted = s.rstAsserted := by
  obtain ⟨t, h⟩ : ∃ t, exec i s = .next t := by
    rw [exec_eq_complete]
    rcases complete_cases rfl with ⟨x, -, h⟩ | ⟨x, -, -, h⟩ | ⟨u, -, -, h⟩ <;> exact ⟨_, h⟩
  have hagenda : t.agenda = s.agenda :=
    exec_keeps_result State.agenda h (fun _ => rfl) fun _ => by rw [registersAfter_frame]; rfl
  obtain ⟨-, hrst, -⟩ := exec_status_own h
  rcases exec_next_cases h with ⟨x, rfl⟩ | ⟨out, -, -, rfl⟩
  · exact ⟨_, h, rfl, rfl, hagenda, hrst⟩
  · exact ⟨_, h, rfl, rfl, hagenda, hrst⟩

/-- The engine's turn completes the pending command, whether the word is an instruction's or not. -/
theorem engineTurn_completes {s : State} (hbusy : s.status.busy = true) : ∃ t, engineTurn exec s = .next t ∧
    t.status.busy = false ∧ t.status.done = true ∧ t.agenda = s.agenda ∧ t.rstAsserted = s.rstAsserted := by
  cases hd : decode s.cmd with
  | ok i => rw [engineTurn_ok exec hbusy hd]; exact exec_completes i s
  | error x => exact ⟨_, engineTurn_error exec hbusy hd, rfl, rfl, rfl, rfl⟩

/-! ### `WAIT` (R109) -/

theorem programEvents_wait (p : Slot) (h : p.engineFirst = false) : programEvents [p] [.wait] = [.wait p.polls] := by
  simp [programEvents, lineOps, scheduled, slotEvents, h]

theorem step_wait_idle {s : State} {n : Nat} {rest : List Event} (h : s.agenda = .wait n :: rest)
    (hr : s.rstAsserted = false) (hidle : s.status.busy = false) :
    step s = .next { s with agenda := rest, response := some (.okRead s.status.toWord) } := by
  rw [step_cons h, handleEvent, waitRead_eq (s := { s with agenda := rest }) hr]
  simp [hidle]

theorem step_wait_busy {s : State} {n : Nat} {rest : List Event} (h : s.agenda = .wait n :: rest)
    (hr : s.rstAsserted = false) (hbusy : s.status.busy = true) :
    step s = .next { s with agenda := waitAgain n rest, response := some (.okRead s.status.toWord) } := by
  rw [step_cons h, handleEvent, waitRead_eq (s := { s with agenda := rest }) hr]
  simp [hbusy]

/-- `k + 1` reads while busy change nothing but the host's position, whatever comes after them. -/
theorem stepTimes_wait_busy (j n : Nat) (rest : List Event) : ∀ (k : Nat) (s : State), s.rstAsserted = false →
    s.status.busy = true → s.agenda = .wait (n + k) :: rest →
    stepTimes (j + (k + 1)) s =
      stepTimes j { s with agenda := waitAgain n rest, response := some (.okRead s.status.toWord) } := by
  intro k
  induction k with
  | zero => intro s hr hbusy h; exact stepTimes_succ j (step_wait_busy h hr hbusy)
  | succ k ih =>
    intro s hr hbusy h
    exact (stepTimes_succ (j + (k + 1)) (step_wait_busy h hr hbusy)).trans
      (ih { s with agenda := .wait (n + k) :: rest, response := some (.okRead s.status.toWord) } hr hbusy rfl)

/-- After the last read that finds the block busy, the completion, and the read that ends the `WAIT`. -/
theorem stepTimes_wait_end {s : State} {rest : List Event} (hr : s.rstAsserted = false) (hbusy : s.status.busy = true)
    (h : s.agenda = .engine :: .wait 0 :: rest) : ∃ t, stepTimes 2 s = .next t ∧ t.agenda = rest ∧
    t.response = some (.okRead t.status.toWord) ∧ t.status.busy = false ∧ t.status.done = true := by
  obtain ⟨u, hturn, hidle, hdone, hagenda, hrst⟩ :=
    engineTurn_completes (s := { s with agenda := .wait 0 :: rest }) hbusy
  have hread := step_wait_idle hagenda (hrst.trans hr) hidle
  exact ⟨_, (stepTimes_succ 1 ((step_engine h).trans hturn)).trans (stepTimes_succ 0 hread), rfl, rfl, hidle, hdone⟩

/-- Settles O60: idle, the first read ends the loop; busy, the reads before the completion find `BUSY = 1`, and the one
after it finds `BUSY = 0`. -/
theorem waitEndsWithBusyClear : Obligations.WaitEndsWithBusyClear := by
  intro s n rest hr h
  rw [programEvents_wait _ rfl, List.singleton_append] at h
  refine ⟨step_wait_idle h hr, fun hbusy => ⟨fun k hk => ?_, ?_⟩⟩
  · obtain ⟨m, rfl⟩ := Nat.exists_eq_add_of_le' hk
    have hsteps := stepTimes_wait_busy 0 m rest k s hr hbusy h
    rw [Nat.zero_add] at hsteps
    exact ⟨_, _, hsteps, rfl, (status_busy_bit _).trans hbusy, rfl⟩
  · obtain ⟨t, hend, hagenda, hresponse, hidle, hdone⟩ := stepTimes_wait_end (rest := rest)
      (s := { s with agenda := waitAgain 0 rest, response := some (.okRead s.status.toWord) }) hr hbusy rfl
    have hsteps := stepTimes_wait_busy 2 0 rest n s hr hbusy (by rw [Nat.zero_add]; exact h)
    rw [hend, Nat.add_comm] at hsteps
    exact ⟨t, _, hsteps, hagenda, hresponse, (status_busy_bit _).trans hidle, hidle, hdone⟩

end Sys2Proof.Proofs
end

section
/-! What a command answers, by its checks and its output (60_exceptions.md R232, R235, R236): the shape that the rules
of the instructions share. -/

namespace Sys2Proof.Proofs

open Sys2Proof Sys2Proof.Machine Sys2Proof.Laws

theorem exec_of_check {i : Instr} {s : State} {x : Exc} (h : operandCheck i s = some x) :
    ∃ t, exec i s = .next t ∧ CompletedInError s t x.code :=
  ⟨_, by rw [exec_eq_complete, h]; rfl, completedInError_takeException s x⟩

theorem exec_of_output_error {i : Instr} {s : State} {x : Exc} (hcheck : operandCheck i s = none)
    (hout : outputOf i s = .error x) : ∃ t, exec i s = .next t ∧ CompletedInError s t x.code :=
  ⟨_, by rw [exec_eq_complete, hcheck, hout]; rfl, completedInError_takeException s x⟩

/-- `OUTLEN` can hold the length of an output, because `BUF` can hold the output. -/
theorem outputOf_length_lt {i : Instr} {s : State} {out : List Byte} (hcheck : operandCheck i s = none)
    (hout : outputOf i s = .ok out) : out.length < 2 ^ 32 := by
  have hle := outputOf_length_le hout
  have hfits := maxOut_fits hcheck
  have hsize : Config.bufSize = 4096 := rfl
  omega

theorem wroteOutput_deliver (s : State) {out : List Byte} (h : out.length < 2 ^ 32) :
    WroteOutput s (s.deliver out).succeed out :=
  ⟨bufByte_deliver_inside s out, bufByte_deliver_outside s out, Nat.mod_eq_of_lt h⟩

/-- A command without result registers whose checks pass writes its output and changes nothing else. -/
theorem exec_of_output {i : Instr} {s : State} {out : List Byte} (hregs : registersAfter i s = s)
    (hcheck : operandCheck i s = none) (hout : outputOf i s = .ok out) :
    ∃ t, exec i s = .next t ∧ t = { s with buf := t.buf, outlen := t.outlen, status := okStatus s.status } ∧
      WroteOutput s t out :=
  ⟨(s.deliver out).succeed, by rw [exec_eq_complete, hcheck, hout, hregs]; rfl, rfl,
    wroteOutput_deliver s (outputOf_length_lt hcheck hout)⟩

end Sys2Proof.Proofs
end

section
/-! The PKCS7 unit (40_padding.md R130 to R134): a padding as a counted tail, what unpadding strips, and the
instructions `PKCS7.PAD` and `PKCS7.UNPAD`. -/

namespace Sys2Proof.Proofs

open Sys2Proof Sys2Proof.Machine Sys2Proof.Laws

/-! ### Padding (R130) -/

/-- The padding of count `V`: `V` bytes, each of value `V`. -/
def countedTail (V : Nat) : List Byte := List.replicate V (BitVec.ofNat 8 V)

@[simp] theorem countedTail_length (V : Nat) : (countedTail V).length = V := List.length_replicate

theorem getLast?_append_countedTail (p : List Byte) {V : Nat} (h : 1 ≤ V) :
    (p ++ countedTail V).getLast? = some (BitVec.ofNat 8 V) := by
  have hV : V ≠ 0 := Nat.ne_of_gt h
  simp [countedTail, List.getLast?_append, List.getLast?_replicate, hV]

theorem pkcs7Pad_eq (s : List Byte) (B : Nat) : pkcs7Pad s B = s ++ countedTail (padCount s.length B) := rfl

theorem padCount_bounds (len : Nat) {B : Nat} (h : 1 ≤ B) : 1 ≤ padCount len B ∧ padCount len B ≤ B := by
  have hlt := Nat.mod_lt len h
  rw [padCount]
  omega

/-- The padding fills the last block. -/
theorem add_padCount_mod (len : Nat) {B : Nat} (h : 1 ≤ B) : (len + padCount len B) % B = 0 := by
  have hlt := Nat.mod_lt len h
  have hdiv := Nat.div_add_mod len B
  have hsum : len + padCount len B = B * (len / B + 1) := by
    rw [padCount, Nat.mul_succ]
    omega
  rw [hsum, Nat.mul_mod_right]

/-- Settles O14: the result is the sequence and a counted tail of `N` bytes. -/
theorem padAppendsACountedTail : Obligations.PadAppendsACountedTail := by
  rintro s B N hB - rfl
  have ⟨hpos, hle⟩ := padCount_bounds s.length hB
  refine ⟨rfl, hpos, hle, pkcs7Pad_length s B, ?_, ?_, ?_, getLast?_append_countedTail s hpos⟩
  · rw [pkcs7Pad_length, add_padCount_mod s.length hB]
  · rw [pkcs7Pad_length]
    omega
  · rw [pkcs7Pad_length]
    omega

/-! ### Unpadding (R131, R134) -/

/-- `PaddedBy` speaks of the tail of the sequence byte by byte. -/
theorem paddedBy_iff_drop (s : List Byte) (V : Nat) :
    PaddedBy s V ↔ 1 ≤ V ∧ V ≤ s.length ∧ s.drop (s.length - V) = countedTail V := by
  refine and_congr_right fun _ => and_congr_right fun hV => ?_
  constructor
  · intro h
    apply List.ext_getElem?
    intro i
    rw [List.getElem?_drop, countedTail, List.getElem?_replicate]
    split
    · next hi => exact h _ (by omega) (by omega)
    · next hi => exact List.getElem?_eq_none (by omega)
  · intro h i hi hVi
    obtain ⟨j, rfl⟩ := Nat.exists_eq_add_of_le hVi
    rw [← List.getElem?_drop, h, countedTail, List.getElem?_replicate, if_pos (by omega)]

/-- A sequence is padded by `V`, and `p` is what stands before the padding. -/
theorem paddedBy_and_eq_take_iff {s p : List Byte} {V : Nat} :
    PaddedBy s V ∧ p = s.take (s.length - V) ↔ 1 ≤ V ∧ s = p ++ countedTail V := by
  rw [paddedBy_iff_drop]
  constructor
  · rintro ⟨⟨hpos, -, htail⟩, rfl⟩
    exact ⟨hpos, by rw [← htail, List.take_append_drop]⟩
  · rintro ⟨hpos, rfl⟩
    have hlen : (p ++ countedTail V).length - V = p.length := by simp
    rw [hlen, List.drop_left, List.take_left]
    exact ⟨⟨hpos, by simp, rfl⟩, rfl⟩

/-- The last byte is the count, which a byte can hold. -/
theorem pkcs7Unpad_append_countedTail (p : List Byte) {B V : Nat} (hpos : 1 ≤ V) (hle : V ≤ B) (hB : B ≤ 255) :
    pkcs7Unpad (p ++ countedTail V) B = some p := by
  have hcount : (BitVec.ofNat 8 V).toNat = V := Nat.mod_eq_of_lt (by omega)
  have hlen : (p ++ countedTail V).length = p.length + V := by simp
  have hchecks : ¬(V = 0 ∨ B < V ∨ p.length + V < V) := by omega
  have htail : (countedTail V).all (fun b => b == BitVec.ofNat 8 V) = true := by simp [countedTail]
  simp only [pkcs7Unpad, getLast?_append_countedTail p hpos, hcount, hlen, hchecks, if_false,
    Nat.add_sub_cancel, List.drop_left, List.take_left, htail, if_true]

/-- A successful unpadding has stripped a counted tail: the one its last byte counts. -/
theorem eq_append_countedTail_of_pkcs7Unpad {s out : List Byte} {B : Nat} (h : pkcs7Unpad s B = some out) :
    ∃ V, 1 ≤ V ∧ V ≤ B ∧ s = out ++ countedTail V := by
  unfold pkcs7Unpad at h
  split at h
  · cases h
  next v _ =>
  split at h
  · cases h
  next hchecks =>
  split at h
  · next htail =>
    cases h
    have heq : s.drop (s.length - v.toNat) = countedTail v.toNat := by
      rw [countedTail, BitVec.ofNat_toNat, BitVec.setWidth_eq, List.eq_replicate_iff, List.length_drop]
      exact ⟨by omega, fun b hb => eq_of_beq (List.all_eq_true.1 htail b hb)⟩
    exact ⟨v.toNat, by omega, by omega, by rw [← heq, List.take_append_drop]⟩
  · cases h

theorem pkcs7Unpad_eq_some_iff {s out : List Byte} {B : Nat} (hB : B ≤ 255) :
    pkcs7Unpad s B = some out ↔ ∃ V, V ≤ B ∧ PaddedBy s V ∧ out = s.take (s.length - V) := by
  simp only [paddedBy_and_eq_take_iff]
  constructor
  · intro h
    obtain ⟨V, hpos, hle, hs⟩ := eq_append_countedTail_of_pkcs7Unpad h
    exact ⟨V, hle, hpos, hs⟩
  · rintro ⟨V, hle, hpos, rfl⟩
    exact pkcs7Unpad_append_countedTail out hpos hle hB

theorem pkcs7Unpad_eq_none_of_not_validlyPadded {s : List Byte} {B : Nat} (hB : B ≤ 255) (h : ¬ValidlyPadded s B) :
    pkcs7Unpad s B = none := by
  rw [Option.eq_none_iff_forall_ne_some]
  intro out hout
  obtain ⟨V, hle, hpad, -⟩ := (pkcs7Unpad_eq_some_iff hB).1 hout
  exact h ⟨V, hle, hpad⟩

/-- Settles O15: valid paddings are the counted tails, and unpadding strips the one that the last byte counts. -/
theorem unpadSucceedsExactlyOnValidPadding : Obligations.UnpadSucceedsExactlyOnValidPadding :=
  fun _ _ _ _ hB => pkcs7Unpad_eq_some_iff hB

/-- Settles O16: padding appends a counted tail of at least one byte and at most `B`. -/
theorem unpadUndoesPad : Obligations.UnpadUndoesPad := by
  intro s B hB hB'
  have ⟨hpos, hle⟩ := padCount_bounds s.length hB
  rw [pkcs7Pad_eq]
  exact pkcs7Unpad_append_countedTail s hpos hle hB'

/-! ### The instructions (R132, R133) -/

theorem checkPkcs7Pad_eq (s : State) : checkPkcs7Pad s =
    if ¬BlockSizeLegal s then some .badBlockSize
    else if ¬RangesUsable s (s.len.toNat + padCount s.len.toNat s.blksz.toNat) then some .badRange else none := by
  simp only [← blockSizeOk_iff, ← rangesOk_iff, checkPkcs7Pad, maxOutPkcs7Pad, Bool.not_eq_true, Bool.not_eq_true']

theorem checkPkcs7Unpad_eq (s : State) : checkPkcs7Unpad s =
    if ¬BlockSizeLegal s then some .badBlockSize
    else if s.len.toNat = 0 then some .badLength
    else if ¬RangesUsable s s.len.toNat then some .badRange else none := by
  simp only [← blockSizeOk_iff, ← rangesOk_iff, checkPkcs7Unpad, maxOutPkcs7Unpad, Bool.not_eq_true,
    Bool.not_eq_true']

theorem outputOf_pkcs7Pad (s : State) : outputOf .pkcs7Pad s =
    .ok (s.source ++ countedTail (padCount s.len.toNat s.blksz.toNat)) := by
  rw [outputOf, pkcs7Pad_eq, source_length]

/-- Settles O17: the checks in order, then the padded source. -/
theorem pkcs7PadFollowsItsRule : Obligations.Pkcs7PadFollowsItsRule := by
  refine ⟨rfl, ?_⟩
  intro s N hN
  obtain rfl : N = padCount s.len.toNat s.blksz.toNat := hN
  have hcheck : operandCheck .pkcs7Pad s = _ := checkPkcs7Pad_eq s
  refine ⟨fun hsize => ?_, fun hsize hranges => ?_, fun hsize hranges => ?_⟩
  · rw [if_pos hsize] at hcheck
    exact exec_of_check hcheck
  · rw [if_neg (not_not_intro hsize), if_pos hranges] at hcheck
    exact exec_of_check hcheck
  · rw [if_neg (not_not_intro hsize), if_neg (not_not_intro hranges)] at hcheck
    exact exec_of_output rfl hcheck (outputOf_pkcs7Pad s)

/-- All the checks of `PKCS7.UNPAD` but the padding's own. -/
theorem operandCheck_pkcs7Unpad_none {s : State} (hsize : BlockSizeLegal s) (hlen : 1 ≤ s.len.toNat)
    (hranges : RangesUsable s s.len.toNat) : operandCheck .pkcs7Unpad s = none := by
  have hcheck : operandCheck .pkcs7Unpad s = _ := checkPkcs7Unpad_eq s
  rwa [if_neg (not_not_intro hsize), if_neg (Nat.ne_of_gt hlen), if_neg (not_not_intro hranges)] at hcheck

/-- Settles O18: the checks in order, then the source's padding, which decides between `InvalidPadding` and the
output. -/
theorem pkcs7UnpadFollowsItsRule : Obligations.Pkcs7UnpadFollowsItsRule := by
  refine ⟨rfl, fun s => ?_⟩
  have hcheck : operandCheck .pkcs7Unpad s = _ := checkPkcs7Unpad_eq s
  refine ⟨fun hsize => ?_, fun hsize hlen => ?_, fun hsize hlen hranges => ?_,
    fun hsize hlen hranges hpad => ?_, fun V hsize hlen hranges hV hpad => ?_⟩
  · rw [if_pos hsize] at hcheck
    exact exec_of_check hcheck
  · rw [if_neg (not_not_intro hsize), if_pos hlen] at hcheck
    exact exec_of_check hcheck
  · rw [if_neg (not_not_intro hsize), if_neg (Nat.ne_of_gt hlen), if_pos hranges] at hcheck
    exact exec_of_check hcheck
  · have hout : outputOf .pkcs7Unpad s = .error .invalidPadding := by
      rw [outputOf, pkcs7Unpad_eq_none_of_not_validlyPadded hsize.2 hpad]
      rfl
    exact exec_of_output_error (operandCheck_pkcs7Unpad_none hsize hlen hranges) hout
  · have hunpad : pkcs7Unpad s.source s.blksz.toNat = some (s.source.take (s.len.toNat - V)) :=
      (pkcs7Unpad_eq_some_iff hsize.2).2 ⟨V, hV, hpad, by rw [source_length]⟩
    have hout : outputOf .pkcs7Unpad s = .ok (s.source.take (s.len.toNat - V)) := by
      rw [outputOf, hunpad]
      rfl
    exact exec_of_output rfl (operandCheck_pkcs7Unpad_none hsize hlen hranges) hout

end Sys2Proof.Proofs
end

section
/-! Byte sequences and their blocks of 16 bytes (00_scope.md R7, 20_memory.md R84): cutting a sequence into blocks and
joining blocks undo each other, and block `i` of the one is entry `i` of the other. -/

namespace Sys2Proof.Proofs

open Sys2Proof Sys2Proof.Machine Sys2Proof.Laws

theorem pieces_getElem? (n : Nat) : ∀ (k i : Nat) (s : List Byte), i < k →
    (pieces n k s)[i]? = some ((s.drop (n * i)).take n) := by
  intro k
  induction k with
  | zero => intro i s h; exact absurd h (Nat.not_lt_zero i)
  | succ k ih =>
    intro i s h
    cases i with
    | zero => rfl
    | succ i =>
      rw [pieces, List.getElem?_cons_succ, ih i _ (Nat.lt_of_succ_lt_succ h), List.drop_drop, Nat.mul_succ,
        Nat.add_comm]

theorem blocks16_getElem? {s : List Byte} {i : Nat} (h : i < s.length / 16) :
    (blocks16 s)[i]? = some (blockAt s i) := by
  rw [blocks16, List.getElem?_map, pieces_getElem? 16 _ _ _ h]
  rfl

/-- The block before block `i` is entry `i` of the blocks with the IV put first. -/
theorem cons_blocks16_getElem? (IV0 : Block) {s : List Byte} {i : Nat} (h : i < s.length / 16) :
    (IV0 :: blocks16 s)[i]? = some (blockBefore IV0 s i) := by
  cases i with
  | zero => rfl
  | succ i => exact blocks16_getElem? (Nat.lt_of_succ_lt h)

theorem bytesOfBlocks_cons (b : Block) (bs : List Block) :
    bytesOfBlocks (b :: bs) = bytesOfBlock b ++ bytesOfBlocks bs := rfl

@[simp] theorem blocks16_bytesOfBlocks (bs : List Block) : blocks16 (bytesOfBlocks bs) = bs := by
  have hcount (bs : List Block) : (bytesOfBlocks bs).length / 16 = bs.length := by
    rw [bytesOfBlocks_length, Nat.mul_div_cancel_left _ (by decide)]
  rw [blocks16, hcount]
  induction bs with
  | nil => rfl
  | cons b bs ih =>
    rw [bytesOfBlocks_cons, List.length_cons, pieces, List.take_left' (bytesOfBlock_length b),
      List.drop_left' (bytesOfBlock_length b), List.map_cons, blockOfBytes_bytesOfBlock, ih]

/-- `k` blocks joined are the first `16 * k` bytes. -/
theorem bytesOfBlocks_pieces : ∀ (k : Nat) (s : List Byte), 16 * k ≤ s.length →
    bytesOfBlocks ((pieces 16 k s).map blockOfBytes) = s.take (16 * k) := by
  intro k
  induction k with
  | zero => intro s _; rfl
  | succ k ih =>
    intro s h
    have hfirst : (s.take 16).length = 16 := List.length_take_of_le (by omega)
    have hrest : 16 * k ≤ (s.drop 16).length := by rw [List.length_drop]; omega
    rw [pieces, List.map_cons, bytesOfBlocks_cons, bytesOfBlock_blockOfBytes hfirst, ih _ hrest, ← List.take_add,
      Nat.mul_succ, Nat.add_comm]

theorem bytesOfBlocks_blocks16 {s : List Byte} (h : s.length % 16 = 0) : bytesOfBlocks (blocks16 s) = s := by
  rw [blocks16, bytesOfBlocks_pieces _ _ (Nat.mul_div_le _ _), List.take_of_length_le (by omega)]

theorem blockAt_bytesOfBlocks {bs : List Block} {i : Nat} {b : Block} (h : bs[i]? = some b) :
    blockAt (bytesOfBlocks bs) i = b := by
  obtain ⟨hi, -⟩ := List.getElem?_eq_some_iff.1 h
  have hi' : i < (bytesOfBlocks bs).length / 16 := by
    rwa [bytesOfBlocks_length, Nat.mul_div_cancel_left _ (by decide)]
  have hblock := blocks16_getElem? hi'
  rw [blocks16_bytesOfBlocks, h] at hblock
  exact (Option.some.inj hblock).symm

end Sys2Proof.Proofs
end

section
/-! CBC over any primitive (41_cbc.md R152, R153, R156): each chain is one function of a block and the ciphertext block
before it, taken along the sequence, so a fact about one block is a fact about entry `i` of two lists. -/

namespace Sys2Proof.Proofs

open Sys2Proof Sys2Proof.Machine Sys2Proof.Laws

/-! ### The chains, block by block -/

/-- Encryption chains each block to the result one place earlier (R152). -/
theorem cbcChain_eq_zipWith (E : Block → Block → Block) (K : Block) : ∀ (bs : List Block) (c : Block),
    cbcChain E K c bs = List.zipWith (fun b p => E (b ^^^ p) K) bs (c :: cbcChain E K c bs) := by
  intro bs
  induction bs with
  | nil => intro c; rfl
  | cons b bs ih => intro c; rw [cbcChain, List.zipWith_cons_cons, ← ih]

/-- Decryption unchains each block from the one received before it, never from a result (R153). -/
theorem cbcUnchain_eq_zipWith (D : Block → Block → Block) (K : Block) : ∀ (xs : List Block) (c : Block),
    cbcUnchain D K c xs = List.zipWith (fun x p => D x K ^^^ p) xs (c :: xs) := by
  intro xs
  induction xs with
  | nil => intro c; rfl
  | cons x xs ih => intro c; rw [cbcUnchain, List.zipWith_cons_cons, ih]

/-- The chains use the same block before each block, so its XOR cancels (R156 (a)). -/
theorem cbcUnchain_cbcChain {E D : Block → Block → Block} (h : ∀ b k, D (E b k) k = b) (K : Block) :
    ∀ (bs : List Block) (c : Block), cbcUnchain D K c (cbcChain E K c bs) = bs := by
  intro bs
  induction bs with
  | nil => intro c; rfl
  | cons b bs ih => intro c; rw [cbcChain, cbcUnchain, h, BitVec.xor_assoc, BitVec.xor_self, BitVec.xor_zero, ih]

/-! ### Encryption (R152) -/

theorem pkcs7Pad_length_mod (P : List Byte) : (pkcs7Pad P 16).length % 16 = 0 := by
  rw [pkcs7Pad_length, add_padCount_mod P.length (by decide)]

theorem cbcEncrypt_length_eq_pad (E : Block → Block → Block) (P : List Byte) (K IV0 : Block) :
    (cbcEncrypt E P K IV0).length = (pkcs7Pad P 16).length := by
  rw [cbcEncrypt, bytesOfBlocks_length, cbcChain_length, blocks16_length,
    Nat.mul_div_cancel' (Nat.dvd_of_mod_eq_zero (pkcs7Pad_length_mod P))]

/-- The padded length as R152 and R154 write it. -/
theorem add_padCount_eq (len : Nat) : len + padCount len 16 = len + 16 - len % 16 := by
  rw [padCount]
  omega

theorem cbcEncrypt_length (E : Block → Block → Block) (P : List Byte) (K IV0 : Block) :
    (cbcEncrypt E P K IV0).length = P.length + 16 - P.length % 16 := by
  rw [cbcEncrypt_length_eq_pad, pkcs7Pad_length, add_padCount_eq]

theorem cbcEncrypt_length_ge (E : Block → Block → Block) (P : List Byte) (K IV0 : Block) :
    16 ≤ (cbcEncrypt E P K IV0).length := by
  rw [cbcEncrypt_length]
  omega

theorem cbcEncrypt_length_mod (E : Block → Block → Block) (P : List Byte) (K IV0 : Block) :
    (cbcEncrypt E P K IV0).length % 16 = 0 := by
  rw [cbcEncrypt_length_eq_pad, pkcs7Pad_length_mod]

@[simp] theorem blocks16_cbcEncrypt (E : Block → Block → Block) (P : List Byte) (K IV0 : Block) :
    blocks16 (cbcEncrypt E P K IV0) = cbcChain E K IV0 (blocks16 (pkcs7Pad P 16)) :=
  blocks16_bytesOfBlocks _

theorem blockAt_cbcEncrypt (E : Block → Block → Block) (P : List Byte) (K IV0 : Block) {i : Nat}
    (h : i < (pkcs7Pad P 16).length / 16) : blockAt (cbcEncrypt E P K IV0) i =
      E (blockAt (pkcs7Pad P 16) i ^^^ blockBefore IV0 (cbcEncrypt E P K IV0) i) K := by
  have hbefore := cons_blocks16_getElem? IV0 (s := cbcEncrypt E P K IV0) (cbcEncrypt_length_eq_pad E P K IV0 ▸ h)
  rw [blocks16_cbcEncrypt] at hbefore
  refine blockAt_bytesOfBlocks ?_
  rw [cbcChain_eq_zipWith, List.getElem?_zipWith, blocks16_getElem? h, hbefore]

/-- Settles O20: the lengths are those of the padded sequence, the blocks those of the chain. -/
theorem cbcEncryptChainsEachBlockToTheOneBefore : Obligations.CbcEncryptChainsEachBlockToTheOneBefore :=
  fun E P K IV0 => ⟨cbcEncrypt_length E P K IV0, cbcEncrypt_length_eq_pad E P K IV0, cbcEncrypt_length_ge E P K IV0,
    cbcEncrypt_length_mod E P K IV0, fun _ h => blockAt_cbcEncrypt E P K IV0 h⟩

/-! ### Decryption (R153, R156) -/

theorem cbcDecryptRaw_length (D : Block → Block → Block) {Cs : List Byte} (K IV0 : Block) (h : Cs.length % 16 = 0) :
    (cbcDecryptRaw D Cs K IV0).length = Cs.length := by
  rw [cbcDecryptRaw, bytesOfBlocks_length, cbcUnchain_length, blocks16_length,
    Nat.mul_div_cancel' (Nat.dvd_of_mod_eq_zero h)]

theorem blockAt_cbcDecryptRaw (D : Block → Block → Block) {Cs : List Byte} (K IV0 : Block) {i : Nat}
    (h : i < Cs.length / 16) :
    blockAt (cbcDecryptRaw D Cs K IV0) i = D (blockAt Cs i) K ^^^ blockBefore IV0 Cs i := by
  refine blockAt_bytesOfBlocks ?_
  rw [cbcUnchain_eq_zipWith, List.getElem?_zipWith, blocks16_getElem? h, cons_blocks16_getElem? IV0 h]

/-- Settles O21: `cbc_decrypt` is by definition the unpadding of the unchained blocks. -/
theorem cbcDecryptUnchainsEachBlockFromTheOneBefore : Obligations.CbcDecryptUnchainsEachBlockFromTheOneBefore :=
  fun D _ K IV0 _ hmod => ⟨cbcDecryptRaw_length D K IV0 hmod, fun _ h => blockAt_cbcDecryptRaw D K IV0 h, rfl⟩

theorem cbcDecryptRaw_cbcEncrypt {E D : Block → Block → Block} (h : ∀ b k, D (E b k) k = b) (P : List Byte)
    (K IV0 : Block) : cbcDecryptRaw D (cbcEncrypt E P K IV0) K IV0 = pkcs7Pad P 16 := by
  rw [cbcDecryptRaw, blocks16_cbcEncrypt, cbcUnchain_cbcChain h, bytesOfBlocks_blocks16 (pkcs7Pad_length_mod P)]

/-- Settles O22: unchaining gives the padded sequence back, and unpadding undoes the padding. -/
theorem cbcDecryptUndoesCbcEncrypt : Obligations.CbcDecryptUndoesCbcEncrypt := by
  intro E D h P K IV0
  rw [cbcDecrypt, cbcDecryptRaw_cbcEncrypt h]
  exact unpadUndoesPad P 16 (by decide) (by decide)

/-- Settles O23: the block before enters block `i` by one XOR, outside the primitive. -/
theorem cbcDecryptCarriesADifferenceOfThePrecedingBlock :
    Obligations.CbcDecryptCarriesADifferenceOfThePrecedingBlock := by
  intro D Cs Cs' K IV0 IV0' δ i _ _ hi hi' hblock hbefore
  calc blockAt (cbcDecryptRaw D Cs' K IV0') i
      = D (blockAt Cs' i) K ^^^ blockBefore IV0' Cs' i := blockAt_cbcDecryptRaw D K IV0' hi'
    _ = D (blockAt Cs i) K ^^^ blockBefore IV0 Cs i ^^^ δ := by rw [hblock, hbefore, BitVec.xor_assoc]
    _ = blockAt (cbcDecryptRaw D Cs K IV0) i ^^^ δ := by rw [blockAt_cbcDecryptRaw D K IV0 hi]

end Sys2Proof.Proofs
end

section
/-! The instructions `CBC.ENC` and `CBC.DEC` (41_cbc.md R154 to R156): their checks in order, their outputs, and the
round trip of the two commands through `BUF`. -/

namespace Sys2Proof.Proofs

open Sys2Proof Sys2Proof.Machine Sys2Proof.Laws

/-! ### `CBC.ENC` (R154) -/

theorem checkCbcEnc_eq (s : State) : checkCbcEnc s =
    if ¬RangesUsable s (s.len.toNat + 16 - s.len.toNat % 16) then some .badRange else none := by
  simp only [← rangesOk_iff, ← add_padCount_eq, checkCbcEnc, maxOutCbcEnc, Bool.not_eq_true, Bool.not_eq_true']

/-- Settles O24: the range check, then the encrypted source. -/
theorem cbcEncFollowsItsRule : Obligations.CbcEncFollowsItsRule := by
  refine ⟨rfl, ?_⟩
  rintro s m rfl
  have hcheck : operandCheck .cbcEnc s = _ := checkCbcEnc_eq s
  refine ⟨fun hranges => ?_, fun hranges => ?_⟩
  · rw [if_pos hranges] at hcheck
    exact exec_of_check hcheck
  · rw [if_neg (not_not_intro hranges)] at hcheck
    obtain ⟨t, hexec, hframe, hbytes, houtside, hlen⟩ := exec_of_output (i := .cbcEnc) rfl hcheck rfl
    refine ⟨t, hexec, hframe, ⟨hbytes, houtside, hlen⟩, ?_⟩
    rw [hlen, cbcEncrypt_length, source_length]

/-! ### `CBC.DEC` (R155) -/

theorem checkCbcDec_eq (s : State) : checkCbcDec s =
    if ¬(16 ≤ s.len.toNat ∧ s.len.toNat % 16 = 0) then some .badLength
    else if ¬RangesUsable s s.len.toNat then some .badRange else none := by
  simp only [← rangesOk_iff, checkCbcDec, maxOutCbcDec, not_and_or, Nat.not_le, Bool.not_eq_true, Bool.not_eq_true',
    ne_eq]

/-- All the checks of `CBC.DEC` but the padding's own. -/
theorem operandCheck_cbcDec_none {s : State} (hlen : 16 ≤ s.len.toNat) (hmod : s.len.toNat % 16 = 0)
    (hranges : RangesUsable s s.len.toNat) : operandCheck .cbcDec s = none := by
  have hcheck : operandCheck .cbcDec s = _ := checkCbcDec_eq s
  rwa [if_neg (not_not_intro ⟨hlen, hmod⟩), if_neg (not_not_intro hranges)] at hcheck

theorem outputOf_cbcDec_of_some {s : State} {out : List Byte}
    (h : cbcDecrypt Config.decrypt s.source s.key.toBlock s.iv.toBlock = some out) :
    outputOf .cbcDec s = .ok out := by
  rw [outputOf, h]
  rfl

/-- Settles O25: the checks in order, then the padding of the decrypted sequence, which decides between
`InvalidPadding` and the output. -/
theorem cbcDecFollowsItsRule : Obligations.CbcDecFollowsItsRule := by
  refine ⟨rfl, ?_⟩
  rintro s PP rfl
  have hcheck : operandCheck .cbcDec s = _ := checkCbcDec_eq s
  refine ⟨fun hlen => ?_, fun hlen hmod hranges => ?_, fun hlen hmod hranges hpad => ?_,
    fun V hlen hmod hranges hV hpad => ?_⟩
  · rw [if_pos hlen] at hcheck
    exact exec_of_check hcheck
  · rw [if_neg (not_not_intro ⟨hlen, hmod⟩), if_pos hranges] at hcheck
    exact exec_of_check hcheck
  · have hout : outputOf .cbcDec s = .error .invalidPadding := by
      rw [outputOf, cbcDecrypt, pkcs7Unpad_eq_none_of_not_validlyPadded (by decide) hpad]
      rfl
    exact exec_of_output_error (operandCheck_cbcDec_none hlen hmod hranges) hout
  · have hraw := cbcDecryptRaw_length Config.decrypt s.key.toBlock s.iv.toBlock (Cs := s.source)
      (by rwa [source_length])
    rw [source_length] at hraw
    have hout := outputOf_cbcDec_of_some ((pkcs7Unpad_eq_some_iff (by decide)).2 ⟨V, hV, hpad, rfl⟩)
    rw [hraw] at hout
    exact exec_of_output rfl (operandCheck_cbcDec_none hlen hmod hranges) hout

/-! ### The round trip (R156) -/

/-- An output reads back from `DST`. -/
theorem memRead_of_wroteOutput {s t : State} {out : List Byte} (h : WroteOutput s t out) :
    t.memRead s.dst.toNat out.length = out := by
  obtain ⟨hbytes, -, -⟩ := h
  refine List.ext_getElem (memRead_length _ _ _) fun i hread hout => ?_
  rw [memRead_getElem, hbytes i hout]

/-- Where the source is the ciphertext of `P` under the state's own key and IV, `CBC.DEC` writes `P`. -/
theorem exec_cbcDec_of_source_eq_cbcEncrypt {s : State} {P : List Byte}
    (hsource : s.source = cbcEncrypt Config.encrypt P s.key.toBlock s.iv.toBlock)
    (hranges : RangesUsable s s.len.toNat) :
    ∃ v, exec .cbcDec s = .next v ∧
      v = { s with buf := v.buf, outlen := v.outlen, status := okStatus s.status } ∧ WroteOutput s v P := by
  have hlen : s.len.toNat = (cbcEncrypt Config.encrypt P s.key.toBlock s.iv.toBlock).length := by
    rw [← hsource, source_length]
  have hcheck := operandCheck_cbcDec_none (hlen ▸ cbcEncrypt_length_ge ..) (hlen ▸ cbcEncrypt_length_mod ..) hranges
  have hdecrypt : cbcDecrypt Config.decrypt s.source s.key.toBlock s.iv.toBlock = some P := by
    rw [hsource]
    exact cbcDecryptUndoesCbcEncrypt _ _ primitiveDecryptUndoesEncrypt P _ _
  exact exec_of_output rfl hcheck (outputOf_cbcDec_of_some hdecrypt)

/-- Settles O26: the ciphertext reads back as the source of `CBC.DEC`, which changes neither key nor IV, and its output
reads back as the old source. -/
theorem cbcDecCommandUndoesCbcEncCommand : Obligations.CbcDecCommandUndoesCbcEncCommand := by
  intro s t d hranges hexec hdranges
  obtain ⟨-, hrule⟩ := cbcEncFollowsItsRule
  obtain ⟨u, hexec', hframe, hwrote, -⟩ := (hrule s _ rfl).2 hranges
  obtain rfl : t = u := by rw [hexec] at hexec'; injection hexec'
  have hkey : t.key = s.key := by rw [hframe]
  have hiv : t.iv = s.iv := by rw [hframe]
  have hsource : ({ t with src := s.dst, len := t.outlen, dst := d } : State).source =
      cbcEncrypt Config.encrypt s.source t.key.toBlock t.iv.toBlock := by
    have ⟨_, _, hlen⟩ := hwrote
    rw [hkey, hiv, State.source, hlen]
    exact (memRead_congr rfl rfl _ _).trans (memRead_of_wroteOutput hwrote)
  obtain ⟨v, hdec, hvframe, hvwrote⟩ := exec_cbcDec_of_source_eq_cbcEncrypt hsource hdranges
  have hback := memRead_of_wroteOutput hvwrote
  obtain ⟨-, -, houtlen⟩ := hvwrote
  rw [source_length] at hback houtlen
  exact ⟨v, hdec, by rw [hvframe]; rfl, BitVec.eq_of_toNat_eq houtlen, hback⟩

end Sys2Proof.Proofs
end

section
/-! CTR over any primitive (42_ctr.md R170, R171, R176): the counter block byte by byte, the keystream as one byte for
each position, and the CTR operation as an XOR with that byte, so each of its laws is a fact about one position. -/

namespace Sys2Proof.Proofs

open Sys2Proof Sys2Proof.Machine Sys2Proof.Laws

/-! ### The counter block (R170) -/

@[simp] theorem le64_length (n : Nat) : (le64 n).length = 8 := leBytes_length 8 n

theorem bytesOfBlock_ctrBlock (n j : Nat) : bytesOfBlock (ctrBlock n j) = le64 n ++ le64 j :=
  bytesOfBlock_blockOfBytes (by rw [List.length_append, le64_length, le64_length])

/-- Settles O27: byte `i` falls in the nonce, byte `8 + i` in the counter. -/
theorem counterBlockIsNonceThenCounterLittleEndian : Obligations.CounterBlockIsNonceThenCounterLittleEndian := by
  intro n j _ _
  refine ⟨bytesOfBlock_ctrBlock n j, fun i hi => ?_⟩
  rw [bytesOfBlock_ctrBlock]
  constructor
  · rw [List.getElem?_append_left (by rwa [le64_length]), le64, leBytes_getElem? _ _ _ hi]
  · rw [List.getElem?_append_right (by rw [le64_length]; omega), le64_length, Nat.add_sub_cancel_left, le64,
      leBytes_getElem? _ _ _ hi]

/-! ### The keystream (R171) -/

theorem bytesOfBlock_blockAt {s : List Byte} {i : Nat} (h : 16 * i + 16 ≤ s.length) :
    bytesOfBlock (blockAt s i) = (s.drop (16 * i)).take 16 :=
  bytesOfBlock_blockOfBytes (List.length_take_of_le (by rw [List.length_drop]; omega))

/-- Byte `p` of joined blocks is byte `p mod 16` of block `p div 16`. -/
theorem bytesOfBlocks_getElem? {bs : List Block} {p : Nat} {b : Block} (h : bs[p / 16]? = some b) :
    (bytesOfBlocks bs)[p]? = (bytesOfBlock b)[p % 16]? := by
  obtain ⟨hlt, -⟩ := List.getElem?_eq_some_iff.1 h
  have hfits : 16 * (p / 16) + 16 ≤ (bytesOfBlocks bs).length := by rw [bytesOfBlocks_length]; omega
  rw [← blockAt_bytesOfBlocks h, bytesOfBlock_blockAt hfits, List.getElem?_take_of_lt (Nat.mod_lt p (by decide)),
    List.getElem?_drop, Nat.div_add_mod]

theorem keystream_length (E : Block → Block → Block) (K : Block) (n m : Nat) : (keystream E K n m).length = m := by
  rw [keystream, List.length_take_of_le]
  rw [bytesOfBlocks_length, List.length_map, List.length_range]
  omega

theorem keystream_getElem? (E : Block → Block → Block) (K : Block) (n : Nat) {m p : Nat} (h : p < m) :
    (keystream E K n m)[p]? = (bytesOfBlock (ksBlock E K n (p / 16)))[p % 16]? := by
  have hblock : p / 16 < (m + 15) / 16 := by omega
  rw [keystream, List.getElem?_take_of_lt h]
  refine bytesOfBlocks_getElem? ?_
  rw [List.getElem?_map, List.getElem?_range hblock, Option.map_some]

/-- Settles O28: the blocks cover `m` bytes, and cutting them off at `m` moves no byte. -/
theorem keystreamByteIsAByteOfItsBlock : Obligations.KeystreamByteIsAByteOfItsBlock :=
  fun E K n m => ⟨fun _ => rfl, keystream_length E K n m, fun _ h => keystream_getElem? E K n h⟩

/-- Byte `p` of the keystream, whatever the length of the message is (R171). -/
def keystreamByte (E : Block → Block → Block) (K : Block) (n p : Nat) : Byte :=
  (bytesOfBlock (ksBlock E K n (p / 16))).getD (p % 16) 0#8

theorem keystream_getElem?_eq_keystreamByte (E : Block → Block → Block) (K : Block) (n : Nat) {m p : Nat} (h : p < m) :
    (keystream E K n m)[p]? = some (keystreamByte E K n p) := by
  have hbyte : p % 16 < (bytesOfBlock (ksBlock E K n (p / 16))).length := by
    rw [bytesOfBlock_length]; exact Nat.mod_lt p (by decide)
  rw [keystream_getElem? E K n h, keystreamByte, List.getD_eq_getElem _ _ hbyte, List.getElem?_eq_getElem hbyte]

/-! ### The CTR operation (R176) -/

theorem xorBytes_getElem? (a b : List Byte) (p : Nat) :
    (xorBytes a b)[p]? = a[p]?.bind fun x => b[p]?.map fun y => x ^^^ y := by
  rw [xorBytes, List.getElem?_zipWith]
  cases a[p]? with
  | none => rfl
  | some x => cases b[p]? <;> rfl

/-- The CTR operation acts on each byte by itself, by the keystream byte of its position. -/
theorem ctrXor_getElem? (E : Block → Block → Block) (s : List Byte) (K : Block) (n p : Nat) :
    (ctrXor E s K n)[p]? = s[p]?.map (· ^^^ keystreamByte E K n p) := by
  rw [ctrXor, xorBytes_getElem?]
  rcases Nat.lt_or_ge p s.length with h | h
  · rw [keystream_getElem?_eq_keystreamByte E K n h, List.getElem?_eq_getElem h]
    rfl
  · rw [List.getElem?_eq_none h]
    rfl

theorem ctrXor_length (E : Block → Block → Block) (s : List Byte) (K : Block) (n : Nat) :
    (ctrXor E s K n).length = s.length := by
  rw [ctrXor, xorBytes, List.length_zipWith, keystream_length, Nat.min_self]

theorem ctrXor_ctrXor (E : Block → Block → Block) (s : List Byte) (K : Block) (n : Nat) :
    ctrXor E (ctrXor E s K n) K n = s := by
  refine List.ext_getElem? fun p => ?_
  rw [ctrXor_getElem?, ctrXor_getElem?]
  cases s[p]? with
  | none => rfl
  | some x => simp

theorem ctrXor_take (E : Block → Block → Block) (s : List Byte) (K : Block) (n m : Nat) :
    (ctrXor E s K n).take m = ctrXor E (s.take m) K n := by
  refine List.ext_getElem? fun p => ?_
  rw [ctrXor_getElem?, List.getElem?_take, List.getElem?_take, ctrXor_getElem?]
  split
  · rfl
  · rfl

theorem xor_xor_xor_cancel_right (x y k : Byte) : x ^^^ k ^^^ (y ^^^ k) = x ^^^ y := by
  rw [BitVec.xor_comm y k, BitVec.xor_assoc, ← BitVec.xor_assoc k k y, BitVec.xor_self, BitVec.zero_xor]

theorem xorBytes_ctrXor_ctrXor (E : Block → Block → Block) (s1 s2 : List Byte) (K : Block) (n : Nat) :
    xorBytes (ctrXor E s1 K n) (ctrXor E s2 K n) = xorBytes s1 s2 := by
  refine List.ext_getElem? fun p => ?_
  rw [xorBytes_getElem?, xorBytes_getElem?, ctrXor_getElem?, ctrXor_getElem?]
  cases s1[p]? with
  | none => rfl
  | some x =>
    cases s2[p]? with
    | none => rfl
    | some y => exact congrArg some (xor_xor_xor_cancel_right x y _)

/-- Settles O29: at each position the keystream byte depends on neither message, and it cancels against itself. -/
theorem ctrXorIsAnInvolutionWithPrefixAndReuseLaws : Obligations.CtrXorIsAnInvolutionWithPrefixAndReuseLaws :=
  fun E K n => ⟨fun s => ctrXor_ctrXor E s K n, fun s m => ctrXor_take E s K n m,
    fun s1 s2 => xorBytes_ctrXor_ctrXor E s1 s2 K n⟩

end Sys2Proof.Proofs
end

section
/-! The instructions of the CTR mode (42_ctr.md R172 to R176): `CTR.ENC` and `CTR.DEC`, which are one operation, and the
keystream generator, whose `j`-th block is found by induction over the run of `KS.NEXT`. -/

namespace Sys2Proof.Proofs

open Sys2Proof Sys2Proof.Machine Sys2Proof.Laws

/-! ### `CTR.ENC` and `CTR.DEC` (R174, R175) -/

theorem checkCtr_eq (s : State) :
    checkCtr s = if ¬RangesUsable s s.len.toNat then some .badRange else none := by
  simp only [← rangesOk_iff, checkCtr, maxOutCtr, Bool.not_eq_true, Bool.not_eq_true']

/-- `CTR.ENC` and `CTR.DEC` have the same check, the same output and no result register. -/
theorem ctr_meaning {i : Instr} (h : i = .ctrEnc ∨ i = .ctrDec) (s : State) :
    operandCheck i s = checkCtr s ∧ registersAfter i s = s ∧
      outputOf i s = .ok (ctrXor Config.encrypt s.source s.key.toBlock s.nonce.toNat) := by
  rcases h with rfl | rfl
  · exact ⟨rfl, rfl, rfl⟩
  · exact ⟨rfl, rfl, rfl⟩

theorem ctrXor_source (E : Block → Block → Block) (s : State) (K : Block) (n : Nat) :
    ctrXor E s.source K n = xorBytes s.source (keystream E K n s.len.toNat) := by
  rw [ctrXor, source_length]

/-- Settles O30: the range check, then the source XOR the keystream, as long as the source. -/
theorem ctrEncAndCtrDecFollowTheirRule : Obligations.CtrEncAndCtrDecFollowTheirRule := by
  refine ⟨rfl, rfl, fun i s hi => ?_⟩
  obtain ⟨hcheck, hregs, hout⟩ := ctr_meaning hi s
  rw [checkCtr_eq] at hcheck
  refine ⟨fun hranges => ?_, fun hranges => ?_⟩
  · rw [if_pos hranges] at hcheck
    exact exec_of_check hcheck
  · rw [if_neg (not_not_intro hranges)] at hcheck
    obtain ⟨t, hexec, hframe, hwrote⟩ := exec_of_output hregs hcheck hout
    have houtlen : t.outlen = s.len := by
      obtain ⟨-, -, hlen⟩ := hwrote
      rw [ctrXor_length, source_length] at hlen
      exact BitVec.eq_of_toNat_eq hlen
    rw [houtlen] at hframe
    rw [ctrXor_source] at hwrote
    exact ⟨t, hexec, hframe, hwrote⟩

/-! ### `KS.INIT` and `KS.NEXT` (R172, R173) -/

theorem exec_ksInit_eq_next (s : State) :
    exec .ksInit s = .next (s.setKeystream s.ksb (pairOfNat 0)).deliverNothing.succeed := by
  rw [exec_ksInit, complete_none_ok]

theorem exec_ksNext_eq_next (s : State) : exec .ksNext s = .next (s.setKeystream
    (quadOfBlock (Config.encrypt (ctrBlock s.nonce.toNat s.cnt.toNat) s.key.toBlock))
    (pairOfNat (s.cnt.toNat + 1))).deliverNothing.succeed := by
  rw [exec_ksNext, complete_none_ok]

/-- A success that writes `KSB` and `CNT`, as the whole next state. -/
theorem setKeystream_succeed_frame (s : State) (k : Quad) (c : Pair) :
    (s.setKeystream k c).deliverNothing.succeed = { s with
      ksb := (s.setKeystream k c).deliverNothing.succeed.ksb
      cnt := (s.setKeystream k c).deliverNothing.succeed.cnt
      outlen := 0#32
      status := okStatus s.status } := rfl

/-- Settles O31: no check, and block 0 next. -/
theorem ksInitFollowsItsRule : Obligations.KsInitFollowsItsRule :=
  ⟨rfl, fun s => ⟨_, exec_ksInit_eq_next s, by simp, rfl⟩⟩

@[simp] theorem quadOfBlock_bytes (b : Block) : (quadOfBlock b).bytes = bytesOfBlock b := by
  rw [← bytesOfBlock_toBlock, toBlock_quadOfBlock]

/-- Settles O32: no check; the registers `KSB` and `CNT` hold what the effect puts there. -/
theorem ksNextFollowsItsRule : Obligations.KsNextFollowsItsRule :=
  ⟨rfl, fun s => ⟨_, exec_ksNext_eq_next s, by simp, by simp, setKeystream_succeed_frame ..⟩⟩

/-! ### The run of `KS.NEXT` (R176 (d)) -/

theorem pair_toNat_lt (p : Pair) : p.toNat < 2 ^ 64 := by
  have hhi := p.hi.isLt
  have hlo := p.lo.isLt
  rw [Pair.toNat]
  omega

theorem execTimes_succ {i : Instr} {s u : State} (n : Nat) (h : exec i s = .next u) :
    execTimes i (n + 1) s = execTimes i n u := by
  rw [execTimes, h]

theorem ksBlock_congr_mod (E : Block → Block → Block) (K : Block) (n : Nat) {j j' : Nat}
    (h : j % 2 ^ 64 = j' % 2 ^ 64) : ksBlock E K n j = ksBlock E K n j' := by
  rw [ksBlock, ksBlock, h]

/-- `KS.NEXT` in terms of the keystream: the block of `CNT`, and the next count. -/
theorem exec_ksNext_ksBlock (s : State) : ∃ u, exec .ksNext s = .next u ∧
    u.ksb.bytes = bytesOfBlock (ksBlock Config.encrypt s.key.toBlock s.nonce.toNat s.cnt.toNat) ∧
    u.cnt.toNat = (s.cnt.toNat + 1) % 2 ^ 64 ∧ u.key = s.key ∧ u.nonce = s.nonce := by
  obtain ⟨-, hrule⟩ := ksNextFollowsItsRule
  obtain ⟨u, hexec, hksb, hcnt, hframe⟩ := hrule s
  refine ⟨u, hexec, ?_, hcnt, by rw [hframe], by rw [hframe]⟩
  rw [hksb, ksBlock, Nat.mod_eq_of_lt (pair_toNat_lt s.cnt)]

/-- `j + 1` commands `KS.NEXT` from any count leave the block `j` places on, modulo `2^64`. -/
theorem execTimes_ksNext (j : Nat) : ∀ s : State, ∃ t, execTimes .ksNext (j + 1) s = .next t ∧
    t.ksb.bytes = bytesOfBlock (ksBlock Config.encrypt s.key.toBlock s.nonce.toNat (s.cnt.toNat + j)) ∧
    t.cnt.toNat = (s.cnt.toNat + (j + 1)) % 2 ^ 64 ∧ t.key = s.key ∧ t.nonce = s.nonce := by
  induction j with
  | zero =>
    intro s
    obtain ⟨u, hexec, hu⟩ := exec_ksNext_ksBlock s
    refine ⟨u, execTimes_succ 0 hexec, ?_⟩
    rwa [Nat.add_zero, Nat.zero_add]
  | succ j ih =>
    intro s
    obtain ⟨u, hexec, -, hcnt, hkey, hnonce⟩ := exec_ksNext_ksBlock s
    obtain ⟨t, hrun, htksb, htcnt, htkey, htnonce⟩ := ih u
    refine ⟨t, (execTimes_succ (j + 1) hexec).trans hrun, ?_, ?_, htkey.trans hkey, htnonce.trans hnonce⟩
    · have hmod : (u.cnt.toNat + j) % 2 ^ 64 = (s.cnt.toNat + (j + 1)) % 2 ^ 64 := by omega
      rw [htksb, hkey, hnonce, ksBlock_congr_mod _ _ _ hmod]
    · omega

/-- Settles O33: the run of `KS.NEXT` from the count 0 that `KS.INIT` leaves. -/
theorem ksNextProducesTheKeystreamInOrder : Obligations.KsNextProducesTheKeystreamInOrder := by
  intro s j
  obtain ⟨-, hinit⟩ := ksInitFollowsItsRule
  obtain ⟨t0, hexec, hcnt0, hframe⟩ := hinit s
  have hkey : t0.key = s.key := by rw [hframe]
  have hnonce : t0.nonce = s.nonce := by rw [hframe]
  obtain ⟨t, hrun, hksb, hcnt, htkey, htnonce⟩ := execTimes_ksNext j t0
  rw [hcnt0, Nat.zero_add, hkey, hnonce] at hksb
  rw [hcnt0, Nat.zero_add] at hcnt
  exact ⟨t0, t, hexec, hrun, hksb, hcnt, htkey.trans hkey, htnonce.trans hnonce⟩

end Sys2Proof.Proofs
end

section
/-! Padding and absorbing a message (43_sha1.md R191, R193, R200): a message of whole chunks can be absorbed before the
rest is padded, and length extension is that law for the padded message. -/

namespace Sys2Proof.Proofs

open Sys2Proof Sys2Proof.Machine Sys2Proof.Laws

/-! ### Padding (R191) -/

/-- `sha1Fill` is `(55 - len) mod 64` over the integers. -/
theorem eq_sha1Fill_iff (k len : Nat) : k = sha1Fill len ↔ (k : Int) = (55 - (len : Int)) % 64 := by
  rw [sha1Fill]
  omega

theorem sha1Fill_lt (len : Nat) : sha1Fill len < 64 := Nat.mod_lt _ (by decide)

theorem sha1PadBytes_length_mod (m : List Byte) (L : Nat) : (sha1PadBytes m L).length % 64 = 0 := by
  rw [sha1PadBytes_length, sha1Fill]
  omega

/-- Settles O34: the definition of `sha1_pad` with its fill count read over the integers. -/
theorem sha1PadIsAWholeNumberOfChunks : Obligations.Sha1PadIsAWholeNumberOfChunks := by
  intro m L
  have hlength := sha1PadBytes_length m L
  have hfill := sha1Fill_lt m.length
  exact ⟨sha1Fill m.length, (eq_sha1Fill_iff _ _).1 rfl, rfl, hlength, sha1PadBytes_length_mod m L,
    by omega, by omega⟩

/-- The fill depends on the length modulo 64 only. -/
theorem sha1Fill_add_of_mod {n : Nat} (h : n % 64 = 0) (len : Nat) : sha1Fill (n + len) = sha1Fill len := by
  rw [sha1Fill, sha1Fill, Nat.add_mod, h, Nat.zero_add, Nat.mod_mod]

theorem sha1PadBytes_append {x : List Byte} (h : x.length % 64 = 0) (y : List Byte) (L : Nat) :
    sha1PadBytes (x ++ y) L = x ++ sha1PadBytes y L := by
  rw [sha1PadBytes, sha1PadBytes, List.length_append, sha1Fill_add_of_mod h]
  simp only [List.append_assoc]

/-- The length field holds 64 bits of the bit length. -/
theorem sha1PadBytes_mod (m : List Byte) (L : Nat) : sha1PadBytes m (L % 2 ^ 64) = sha1PadBytes m L := by
  rw [sha1PadBytes, sha1PadBytes, Nat.mul_mod_mod]

/-- A message and its glue are the padded message (R200). -/
theorem append_glue (m : List Byte) (L : Nat) : m ++ (sha1PadBytes m L).drop m.length = sha1PadBytes m L := by
  simp only [sha1PadBytes, List.append_assoc, List.drop_left]

/-! ### Absorbing whole chunks (R193) -/

theorem pieces_append (n j : Nat) (z : List Byte) : ∀ (k : Nat) (x : List Byte), x.length = n * k →
    pieces n (k + j) (x ++ z) = pieces n k x ++ pieces n j z := by
  intro k
  induction k with
  | zero =>
    intro x h
    obtain rfl := List.eq_nil_of_length_eq_zero h
    rw [Nat.zero_add]
    rfl
  | succ k ih =>
    intro x h
    have hfirst : n ≤ x.length := by rw [h]; exact Nat.le_mul_of_pos_right n k.succ_pos
    have hrest : (x.drop n).length = n * k := by rw [List.length_drop, h, Nat.mul_succ, Nat.add_sub_cancel]
    rw [Nat.succ_add, pieces, pieces, List.take_append_of_le_length hfirst, List.drop_append_of_le_length hfirst,
      ih _ hrest, List.cons_append]

theorem chunks64_append {x : List Byte} (h : x.length % 64 = 0) (z : List Byte) :
    chunks64 (x ++ z) = chunks64 x ++ chunks64 z := by
  have hcount : (x ++ z).length / 64 = x.length / 64 + z.length / 64 := by
    rw [List.length_append]
    omega
  rw [chunks64, hcount, pieces_append 64 _ z _ x (by omega)]
  rfl

theorem sha1Fold_nil (h : HashState) : sha1Fold h [] = h := rfl

theorem sha1Fold_append (h : HashState) {x : List Byte} (hx : x.length % 64 = 0) (z : List Byte) :
    sha1Fold h (x ++ z) = sha1Fold (sha1Fold h x) z := by
  rw [sha1Fold, chunks64_append hx, List.foldl_append]
  rfl

theorem sha1Fold_chunk (h : HashState) {c : List Byte} (hc : c.length = 64) : sha1Fold h c = sha1Chunk h c := by
  have hchunks : chunks64 c = [c] := by
    rw [chunks64, hc]
    exact congrArg (· :: []) (List.take_of_length_le (Nat.le_of_eq hc))
  rw [sha1Fold, hchunks]
  rfl

/-- Settles O37: the first chunk is a whole number of chunks, so it is absorbed before the rest. -/
theorem sha1FoldAbsorbsTheChunksInOrder : Obligations.Sha1FoldAbsorbsTheChunksInOrder := by
  intro h
  refine ⟨sha1Fold_nil h, fun x hne hmod => ?_, fun m p => rfl⟩
  have hpos : 0 < x.length := List.length_pos_of_ne_nil hne
  have hfirst : (x.take 64).length = 64 := List.length_take_of_le (by omega)
  calc sha1Fold h x
    _ = sha1Fold h (x.take 64 ++ x.drop 64) := by rw [List.take_append_drop]
    _ = sha1Fold (sha1Fold h (x.take 64)) (x.drop 64) := sha1Fold_append h (by rw [hfirst]) _
    _ = sha1Fold (sha1Chunk h (x.take 64)) (x.drop 64) := by rw [sha1Fold_chunk h hfirst]

/-! ### The laws of R200 -/

theorem sha1Compress_eq (m : List Byte) (h : HashState) (p : Nat) :
    sha1Compress m h p = sha1Fold h (sha1PadBytes m (p + m.length)) := by
  rw [sha1Compress, sha1PadBytes_mod]

/-- R200 (a) without its proviso, because both sides reduce the length modulo `2^64`. -/
theorem sha1Compress_append {x : List Byte} (hx : x.length % 64 = 0) (y : List Byte) (h : HashState) (p : Nat) :
    sha1Compress (x ++ y) h p = sha1Compress y (sha1Fold h x) (p + x.length) := by
  rw [sha1Compress_eq, sha1Compress_eq, sha1PadBytes_append hx, sha1Fold_append h hx, List.length_append, Nat.add_assoc]

/-- Settles O38: the law holds whether or not the lengths stay below `2^64`. -/
theorem sha1CompressSplitsAtAChunkBoundary : Obligations.Sha1CompressSplitsAtAChunkBoundary :=
  fun _ y h p hx _ => sha1Compress_append hx y h p

/-- Settles O39: `m` and its glue are the padded `m`, whole chunks, and absorbing them is hashing `m`. -/
theorem sha1LengthExtension : Obligations.Sha1LengthExtension := by
  rintro m g y rfl
  have hpad : m ++ (sha1PadBytes m m.length).drop m.length = sha1PadBytes m m.length := append_glue m m.length
  have hhash : sha1Compress m sha1Iv 0 = sha1Fold sha1Iv (sha1PadBytes m m.length) := by
    rw [sha1Compress_eq, Nat.zero_add]
  rw [← List.length_append, hpad, sha1Compress_append (sha1PadBytes_length_mod m _), hhash, Nat.zero_add]

end Sys2Proof.Proofs
end

section
/-! The compression of one chunk (43_sha1.md R192) and the digest (R199): the schedule as a sequence indexed by `t`, the
working variables after `t` rounds, and the words of a digest. -/

namespace Sys2Proof.Proofs

open Sys2Proof Sys2Proof.Machine Sys2Proof.Laws

/-! ### The message schedule -/

/-- The last word added is the next one of the words before it. -/
theorem scheduleExtend_succ (k : Nat) : ∀ ws : List Word,
    scheduleExtend (k + 1) ws = scheduleNext (scheduleExtend k ws) :: scheduleExtend k ws := by
  induction k with
  | zero => intro ws; rfl
  | succ k ih => intro ws; exact ih (scheduleNext ws :: ws)

theorem scheduleExtend_length (k : Nat) (ws : List Word) : (scheduleExtend k ws).length = k + ws.length := by
  induction k with
  | zero => exact (Nat.zero_add _).symm
  | succ k ih => rw [scheduleExtend_succ, List.length_cons, ih, Nat.succ_add]

/-- Without its newest `j` words a schedule is the one extended by `j` words less. -/
theorem scheduleExtend_drop (k j : Nat) (ws : List Word) :
    (scheduleExtend (k + j) ws).drop j = scheduleExtend k ws := by
  induction j with
  | zero => rfl
  | succ j ih => rw [← Nat.add_assoc, scheduleExtend_succ, List.drop_succ_cons, ih]

/-- Every added word follows from the words older than it. -/
theorem scheduleExtend_getD {n j : Nat} (h : j < n) (ws : List Word) :
    (scheduleExtend n ws).getD j 0#32 = scheduleNext ((scheduleExtend n ws).drop (j + 1)) := by
  obtain ⟨k, rfl⟩ : ∃ k, n = k + 1 + j := ⟨n - 1 - j, by omega⟩
  have hfrom : (scheduleExtend (k + 1 + j) ws).drop j = scheduleNext (scheduleExtend k ws) :: scheduleExtend k ws := by
    rw [scheduleExtend_drop, scheduleExtend_succ]
  have hafter : (scheduleExtend (k + 1 + j) ws).drop (j + 1) = scheduleExtend k ws := by
    rw [← List.drop_drop, hfrom]
    rfl
  rw [hafter, List.getD_eq_getElem?_getD, ← List.head?_drop, hfrom]
  rfl

theorem scheduleNext_drop (ws : List Word) (n : Nat) : scheduleNext (ws.drop n) =
    rotl (ws.getD (n + 2) 0#32 ^^^ ws.getD (n + 7) 0#32 ^^^ ws.getD (n + 13) 0#32 ^^^ ws.getD (n + 15) 0#32) 1 := by
  simp only [scheduleNext, List.getD_eq_getElem?_getD, List.getElem?_drop]

/-- The sixteen words of a chunk, big-endian (R192). -/
def chunkWords (c : List Byte) : List Word := (pieces 4 16 c).map wordBe

@[simp] theorem chunkWords_length (c : List Byte) : (chunkWords c).length = 16 := by simp [chunkWords]

theorem chunkWords_getElem? (c : List Byte) {t : Nat} (h : t < 16) :
    (chunkWords c)[t]? = some (wordBe ((c.drop (4 * t)).take 4)) := by
  rw [chunkWords, List.getElem?_map, pieces_getElem? 4 16 t c h]
  rfl

theorem schedule_eq (c : List Byte) : schedule c = (scheduleExtend 64 (chunkWords c).reverse).reverse := rfl

@[simp] theorem schedule_length (c : List Byte) : (schedule c).length = 80 := by
  rw [schedule_eq, List.length_reverse, scheduleExtend_length, List.length_reverse, chunkWords_length]

/-- The schedule begins with the chunk's words. -/
theorem schedule_take (c : List Byte) : (schedule c).take 16 = chunkWords c := by
  have hadded : (scheduleExtend 64 (chunkWords c).reverse).length - 16 = 64 := by
    rw [scheduleExtend_length, List.length_reverse, chunkWords_length]
  rw [schedule_eq, List.take_reverse, hadded, ← Nat.zero_add 64, scheduleExtend_drop, scheduleExtend,
    List.reverse_reverse]

/-- Word `t` is `79 - t` places behind the newest. -/
theorem schedule_getD (c : List Byte) {t : Nat} (h : t < 80) :
    (schedule c).getD t 0#32 = (scheduleExtend 64 (chunkWords c).reverse).getD (79 - t) 0#32 := by
  have hlen : (scheduleExtend 64 (chunkWords c).reverse).length = 80 := by
    rw [scheduleExtend_length, List.length_reverse, chunkWords_length]
  have hindex : 80 - 1 - t = 79 - t := rfl
  rw [schedule_eq, List.getD_eq_getElem?_getD, List.getElem?_reverse (by rwa [hlen]), hlen, hindex,
    List.getD_eq_getElem?_getD]

theorem schedule_recurrence (c : List Byte) {t : Nat} (hlo : 16 ≤ t) (hhi : t < 80) : (schedule c).getD t 0#32 =
    rotl ((schedule c).getD (t - 3) 0#32 ^^^ (schedule c).getD (t - 8) 0#32 ^^^
      (schedule c).getD (t - 14) 0#32 ^^^ (schedule c).getD (t - 16) 0#32) 1 := by
  have hadded : 79 - t < 64 := by omega
  have hback {i : Nat} (hi : i < 16) : (scheduleExtend 64 (chunkWords c).reverse).getD (79 - t + 1 + i) 0#32 =
      (schedule c).getD (t - (i + 1)) 0#32 := by
    rw [schedule_getD c (by omega), show 79 - (t - (i + 1)) = 79 - t + 1 + i by omega]
  rw [schedule_getD c hhi, scheduleExtend_getD hadded, scheduleNext_drop, hback (by decide), hback (by decide),
    hback (by decide), hback (by decide)]

theorem schedule_getElem? (c : List Byte) {t : Nat} (h : t < 16) :
    (schedule c)[t]? = some (wordBe ((c.drop (4 * t)).take 4)) := by
  rw [← chunkWords_getElem? c h, ← schedule_take, List.getElem?_take_of_lt h]

/-- Settles O35: each added word is the next one of the words before it, which stand behind it in the list that
`scheduleExtend` builds. -/
theorem sha1ScheduleFollowsItsRecurrence : Obligations.Sha1ScheduleFollowsItsRecurrence :=
  fun c _ => ⟨schedule_length c, fun _ => schedule_getElem? c, fun _ => schedule_recurrence c⟩

/-! ### The rounds -/

theorem sha1Rounds_concat (w : Word) : ∀ (ws : List Word) (t : Nat) (v : HashState),
    sha1Rounds t (ws ++ [w]) v = sha1Round (t + ws.length) w (sha1Rounds t ws v) := by
  intro ws
  induction ws with
  | nil => intro t v; rfl
  | cons x ws ih =>
    intro t v
    rw [List.cons_append, sha1Rounds, sha1Rounds, ih, List.length_cons, Nat.add_assoc, Nat.add_comm 1]

/-- The working variables after the rounds `0 .. t` of the schedule `ws` (R192). -/
def workingVariables (ws : List Word) (h : HashState) (t : Nat) : HashState := sha1Rounds 0 (ws.take t) h

theorem workingVariables_succ {ws : List Word} (h : HashState) {t : Nat} (ht : t < ws.length) :
    workingVariables ws h (t + 1) = sha1Round t (ws.getD t 0#32) (workingVariables ws h t) := by
  have hword : ws[t] = ws.getD t 0#32 := (List.getD_eq_getElem ws 0#32 ht).symm
  rw [workingVariables, ← List.take_concat_get' ws t ht, sha1Rounds_concat, Nat.zero_add,
    List.length_take_of_le (Nat.le_of_lt ht), hword]
  rfl

theorem sha1Chunk_eq (h : HashState) (c : List Byte) :
    sha1Chunk h c = hashAdd h (workingVariables (schedule c) h 80) := by
  rw [workingVariables, List.take_of_length_le (Nat.le_of_eq (schedule_length c))]
  rfl

/-- The function and the constant of a round, by the range of `t` (R192). -/
theorem roundF_roundK_ranges (t : Nat) (b c d : Word) :
    (t ≤ 19 → roundF t b c d = (b &&& c) ||| (~~~b &&& d) ∧ roundK t = 0x5A827999#32) ∧
    (20 ≤ t → t ≤ 39 → roundF t b c d = b ^^^ c ^^^ d ∧ roundK t = 0x6ED9EBA1#32) ∧
    (40 ≤ t → t ≤ 59 → roundF t b c d = (b &&& c) ||| (b &&& d) ||| (c &&& d) ∧ roundK t = 0x8F1BBCDC#32) ∧
    (60 ≤ t → roundF t b c d = b ^^^ c ^^^ d ∧ roundK t = 0xCA62C1D6#32) := by
  refine ⟨fun h19 => ?_, fun h20 h39 => ?_, fun h40 h59 => ?_, fun h60 => ?_⟩
  · simp only [roundF, roundK, if_pos h19, and_self]
  · have h19 : ¬t ≤ 19 := by omega
    simp only [roundF, roundK, if_neg h19, if_pos h39, and_self]
  · have h39 : ¬t ≤ 39 ∧ ¬t ≤ 19 := by omega
    simp only [roundF, roundK, h39, if_false, if_pos h59, and_self]
  · have h59 : ¬t ≤ 59 ∧ ¬t ≤ 39 ∧ ¬t ≤ 19 := by omega
    simp only [roundF, roundK, h59, if_false, and_self]

/-- Settles O36: `W` is the schedule, `v t` the working variables after `t` of its rounds. -/
theorem sha1ChunkRunsItsEightyRounds : Obligations.Sha1ChunkRunsItsEightyRounds := by
  intro h c _
  refine ⟨fun t => (schedule c).getD t 0#32, workingVariables (schedule c) h, fun t ht => ?_,
    fun t => schedule_recurrence c, rfl, fun t ht => ?_, sha1Chunk_eq h c⟩
  · show (schedule c).getD t 0#32 = _
    rw [List.getD_eq_getElem?_getD, schedule_getElem? c ht]
    rfl
  · obtain ⟨hch, hparity, hmaj, hparity'⟩ := roundF_roundK_ranges t (workingVariables (schedule c) h t).h1
      (workingVariables (schedule c) h t).h2 (workingVariables (schedule c) h t).h3
    exact ⟨_, _, hch, hparity, hmaj, hparity', workingVariables_succ h (by rwa [schedule_length])⟩

/-! ### The digest (R199) -/

@[simp] theorem be32_length (w : Word) : (be32 w).length = 4 := by simp [be32]

@[simp] theorem wordBe_be32 (w : Word) : wordBe (be32 w) = w := by
  have hw := w.isLt
  apply BitVec.eq_of_toNat_eq
  rw [wordBe, be32, List.reverse_reverse, leNat_leBytes, BitVec.toNat_ofNat]
  omega

/-- The four bytes of a word in the middle of a sequence decode to it. -/
theorem wordBe_take_drop {s a b : List Byte} {w : Word} (h : s = a ++ (be32 w ++ b)) :
    wordBe ((s.drop a.length).take 4) = w := by
  rw [h, List.drop_left, List.take_left' (be32_length w), wordBe_be32]

/-- Word `j` stands behind the `j` words before it, four bytes each. -/
theorem digest_eq_append_get (h : HashState) (j : Fin 5) :
    ∃ a b : List Byte, a.length = 4 * j.val ∧ digest h = a ++ (be32 (h.get j) ++ b) := by
  match j with
  | 0 => exact ⟨[], be32 h.h1 ++ be32 h.h2 ++ be32 h.h3 ++ be32 h.h4, rfl, by simp [digest, HashState.get]⟩
  | 1 => exact ⟨be32 h.h0, be32 h.h2 ++ be32 h.h3 ++ be32 h.h4, rfl, by simp [digest, HashState.get]⟩
  | 2 => exact ⟨be32 h.h0 ++ be32 h.h1, be32 h.h3 ++ be32 h.h4, rfl, by simp [digest, HashState.get]⟩
  | 3 => exact ⟨be32 h.h0 ++ be32 h.h1 ++ be32 h.h2, be32 h.h4, rfl, by simp [digest, HashState.get]⟩
  | 4 => exact ⟨be32 h.h0 ++ be32 h.h1 ++ be32 h.h2 ++ be32 h.h3, [], rfl, by simp [digest, HashState.get]⟩

/-- Settles O40: the four bytes behind the words before word `j` decode to it. -/
theorem digestBytesDecodeToTheHashState : Obligations.DigestBytesDecodeToTheHashState := by
  intro h
  refine ⟨rfl, digest_length h, fun j => ?_⟩
  obtain ⟨a, b, ha, hdigest⟩ := digest_eq_append_get h j
  rw [← ha]
  exact wordBe_take_drop hdigest

end Sys2Proof.Proofs
end

section
/-! The instructions of the SHA1 unit (43_sha1.md R194 to R198): the two paddings, which differ in the length field
only, the absorbing of whole chunks, the two hashings, which differ in where they start, and length extension by the
latter. -/

namespace Sys2Proof.Proofs

open Sys2Proof Sys2Proof.Machine Sys2Proof.Laws

/-! ### `SHA1.PAD` and `SHA1.PADF` (R194, R195) -/

theorem checkSha1Pad_eq (s : State) : checkSha1Pad s =
    if ¬RangesUsable s (s.len.toNat + 1 + sha1Fill s.len.toNat + 8) then some .badRange else none := by
  simp only [← rangesOk_iff, checkSha1Pad, maxOutSha1Pad, Bool.not_eq_true, Bool.not_eq_true']

/-- An instruction that writes the source padded for the length `L`, under the check of `SHA1.PAD`. -/
theorem exec_of_sha1Padding {i : Instr} {s : State} {k L : Nat} (hk : (k : Int) = (55 - (s.len.toNat : Int)) % 64)
    (hcheck : operandCheck i s = checkSha1Pad s) (hregs : registersAfter i s = s)
    (hout : outputOf i s = .ok (sha1PadBytes s.source L)) :
    (¬RangesUsable s (s.len.toNat + 1 + k + 8) → ∃ t, exec i s = .next t ∧ CompletedInError s t 5#4) ∧
    (RangesUsable s (s.len.toNat + 1 + k + 8) →
      ∃ t, exec i s = .next t ∧ t = { s with buf := t.buf, outlen := t.outlen, status := okStatus s.status } ∧
        WroteOutput s t (sha1PadBytes s.source L) ∧ t.outlen.toNat = s.len.toNat + 9 + k) := by
  obtain rfl := (eq_sha1Fill_iff k s.len.toNat).2 hk
  rw [checkSha1Pad_eq] at hcheck
  refine ⟨fun hranges => ?_, fun hranges => ?_⟩
  · rw [if_pos hranges] at hcheck
    exact exec_of_check hcheck
  · rw [if_neg (not_not_intro hranges)] at hcheck
    obtain ⟨t, hexec, hframe, hbytes, houtside, hlen⟩ := exec_of_output hregs hcheck hout
    refine ⟨t, hexec, hframe, ⟨hbytes, houtside, hlen⟩, ?_⟩
    rw [hlen, sha1PadBytes_length, source_length]
    omega

/-- Settles O41: the length field holds `LEN`. -/
theorem sha1PadFollowsItsRule : Obligations.Sha1PadFollowsItsRule :=
  ⟨rfl, fun _ _ hk => exec_of_sha1Padding hk rfl rfl rfl⟩

/-- Settles O42: the length field holds `FLEN`. -/
theorem sha1PadfFollowsItsRule : Obligations.Sha1PadfFollowsItsRule :=
  ⟨rfl, fun _ _ hk => exec_of_sha1Padding hk rfl rfl rfl⟩

/-! ### `SHA1.UPD` (R196) -/

theorem checkSha1Upd_eq (s : State) : checkSha1Upd s =
    if s.len.toNat % 64 ≠ 0 then some .badLength else if ¬SourceUsable s then some .badRange else none := by
  simp only [← sourceOk_iff, checkSha1Upd, Bool.not_eq_true, Bool.not_eq_true']

/-- Settles O43: the checks in order, then the effect on `SHA_H` and `PRIOR`; there is no output. -/
theorem sha1UpdFollowsItsRule : Obligations.Sha1UpdFollowsItsRule := by
  refine ⟨rfl, fun s => ?_⟩
  have hcheck : operandCheck .sha1Upd s = _ := checkSha1Upd_eq s
  refine ⟨fun hlen => ?_, fun hlen hsource => ?_, fun hlen hsource => ?_⟩
  · rw [if_pos hlen] at hcheck
    exact exec_of_check hcheck
  · rw [if_neg (not_not_intro hlen), if_pos hsource] at hcheck
    exact exec_of_check hcheck
  · rw [if_neg (not_not_intro hlen), if_neg (not_not_intro hsource)] at hcheck
    have hexec : exec .sha1Upd s = .next
        (s.setHash (sha1Fold s.hash s.source) (s.prior.toNat + s.len.toNat)).deliverNothing.succeed := by
      rw [exec_eq_complete, hcheck]
      rfl
    exact ⟨_, hexec, rfl, pairOfNat_toNat _⟩

/-! ### `SHA1.CMP` and `SHA1.CMPI` (R197, R198) -/

theorem checkSha1Cmp_eq (s : State) : checkSha1Cmp s = if ¬RangesUsable s 20 then some .badRange else none := by
  simp only [← rangesOk_iff, checkSha1Cmp, maxOutSha1Cmp, Bool.not_eq_true, Bool.not_eq_true']

/-- A success that writes the hash registers and an output, as the whole next state. -/
theorem setHash_deliver_succeed_frame (s : State) (h : HashState) (n : Nat) (out : List Byte) :
    ((s.setHash h n).deliver out).succeed = { s with
      buf := ((s.setHash h n).deliver out).succeed.buf
      outlen := BitVec.ofNat 32 out.length
      hash := h
      prior := ((s.setHash h n).deliver out).succeed.prior
      status := okStatus s.status } := rfl

theorem absorbPadded_succeed_frame (s : State) (h : HashState) (p : Nat) (pm : List Byte) :
    (absorbPadded s h p pm).succeed = { s with
      buf := (absorbPadded s h p pm).succeed.buf
      outlen := 20#32
      hash := sha1Fold h pm
      prior := (absorbPadded s h p pm).succeed.prior
      status := okStatus s.status } := by
  have hframe := setHash_deliver_succeed_frame s (sha1Fold h pm) (p + pm.length) (digest (sha1Fold h pm))
  rwa [digest_length] at hframe

theorem absorbPadded_wroteOutput (s : State) (h : HashState) (p : Nat) (pm : List Byte) :
    WroteOutput s (absorbPadded s h p pm).succeed (digest (sha1Fold h pm)) := by
  have hsmall : (digest (sha1Fold h pm)).length < 2 ^ 32 := by rw [digest_length]; decide
  obtain ⟨hinside, houtside, hlen⟩ := wroteOutput_deliver (s.setHash (sha1Fold h pm) (p + pm.length)) hsmall
  exact ⟨hinside, fun a ha => (houtside a ha).trans (bufByte_congr rfl rfl a), hlen⟩

theorem absorbPadded_prior (s : State) (h : HashState) (p : Nat) (pm : List Byte) :
    (absorbPadded s h p pm).prior.toNat = (p + pm.length) % 2 ^ 64 := by
  rw [absorbPadded, deliver_prior, setHash_prior, pairOfNat_toNat]

/-- An instruction that absorbs the padded source `pm` from the state `h` with `p` bytes absorbed before. -/
theorem exec_of_absorbPadded {i : Instr} {s : State} {h : HashState} {p : Nat} {pm : List Byte}
    (hmeaning : exec i s = complete s (checkSha1Cmp s) (.ok (absorbPadded s h p pm))) :
    (¬RangesUsable s 20 → ∃ t, exec i s = .next t ∧ CompletedInError s t 5#4) ∧
    (RangesUsable s 20 →
      ∃ t, exec i s = .next t ∧
        t = { s with
          buf := t.buf
          outlen := 20#32
          hash := sha1Fold h pm
          prior := t.prior
          status := okStatus s.status } ∧
        WroteOutput s t (digest (sha1Fold h pm)) ∧ t.prior.toNat = (p + pm.length) % 2 ^ 64) := by
  rw [checkSha1Cmp_eq] at hmeaning
  refine ⟨fun hranges => ?_, fun hranges => ?_⟩
  · rw [if_pos hranges, complete_some] at hmeaning
    exact ⟨_, hmeaning, completedInError_takeException s .badRange⟩
  · rw [if_neg (not_not_intro hranges), complete_none_ok] at hmeaning
    exact ⟨_, hmeaning, absorbPadded_succeed_frame s h p pm, absorbPadded_wroteOutput s h p pm,
      absorbPadded_prior s h p pm⟩

theorem sha1Compress_source (s : State) (h : HashState) (p : Nat) :
    sha1Compress s.source h p = sha1Fold h (sha1PadBytes s.source ((p + s.len.toNat) % 2 ^ 64)) := by
  rw [sha1Compress, source_length]

/-- A padded source is far shorter than `PRIOR` can count. -/
theorem sha1PadBytes_source_length_lt (s : State) (L : Nat) : (sha1PadBytes s.source L).length < 2 ^ 64 := by
  have hlen := s.len.isLt
  have hfill := sha1Fill_lt s.len.toNat
  rw [sha1PadBytes_length, source_length]
  omega

/-- Settles O44: the padded source absorbed from the default state, with no byte before it. -/
theorem sha1CmpFollowsItsRule : Obligations.Sha1CmpFollowsItsRule := by
  refine ⟨rfl, fun s => ?_⟩
  have hrule := exec_of_absorbPadded (exec_sha1Cmp s)
  have hprior : (0 + (sha1PadBytes s.source s.len.toNat).length) % 2 ^ 64 =
      (sha1PadBytes s.source s.len.toNat).length := by
    rw [Nat.zero_add, Nat.mod_eq_of_lt (sha1PadBytes_source_length_lt s _)]
  have hhash : sha1Fold sha1Iv (sha1PadBytes s.source s.len.toNat) = sha1Compress s.source sha1Iv 0 := by
    rw [sha1Compress_source, Nat.zero_add, sha1PadBytes_mod]
  rwa [hprior, hhash] at hrule

/-- Settles O45: the padded source absorbed from the live `SHA_H` and `PRIOR`. -/
theorem sha1CmpiFollowsItsRule : Obligations.Sha1CmpiFollowsItsRule := by
  refine ⟨rfl, fun s => ?_⟩
  rw [sha1Compress_source]
  exact exec_of_absorbPadded (exec_sha1Cmpi s)

/-! ### Length extension by commands (R200) -/

/-- Settles O46: `SHA1.CMP` leaves the hash of the source and the length of the source and its glue, which is where
length extension has `SHA1.CMPI` start. -/
theorem sha1CmpiContinuesSha1CmpAsLengthExtension : Obligations.Sha1CmpiContinuesSha1CmpAsLengthExtension := by
  intro s t u g hranges hexec hg huhash huprior huranges
  obtain ⟨-, hcmp⟩ := sha1CmpFollowsItsRule
  obtain ⟨t', hexec', htframe, -, htprior⟩ := (hcmp s).2 hranges
  obtain rfl : t = t' := by rw [hexec] at hexec'; injection hexec'
  obtain ⟨-, hcmpi⟩ := sha1CmpiFollowsItsRule
  obtain ⟨v, hvexec, hvframe, hwrote, -⟩ := (hcmpi u).2 huranges
  rw [← source_length s] at hg htprior
  have hhash : u.hash = sha1Compress s.source sha1Iv 0 := by rw [huhash, htframe]
  have hprior : u.prior.toNat = s.source.length + g.length := by
    rw [huprior, htprior, hg, ← List.length_append, append_glue]
  have hextension : sha1Compress u.source u.hash u.prior.toNat =
      sha1Compress (s.source ++ g ++ u.source) sha1Iv 0 := by
    rw [hhash, hprior, sha1LengthExtension _ _ _ hg]
  rw [hextension] at hvframe hwrote
  have hdigest := memRead_of_wroteOutput hwrote
  rw [digest_length] at hdigest
  exact ⟨v, hvexec, by rw [hvframe]; rfl, by rw [hvframe], hdigest⟩

end Sys2Proof.Proofs
end

section
/-! The life of a command as steps (60_exceptions.md R234 to R240): acceptance, the instruction that the engine runs, that
nothing stops, what a completion leaves, and that an error is precise; the interrupt output. -/

namespace Sys2Proof.Proofs

open Sys2Proof Sys2Proof.Machine Sys2Proof.Laws

/-! ### Acceptance and the engine's turn (R234, R235) -/

/-- Settles O4: while idle the filter of R244 lets the write to `CMD` through, and its effect is the acceptance. -/
theorem commandWriteIsAcceptedWhileIdle : Obligations.CommandWriteIsAcceptedWhileIdle := by
  intro s w rest h hr hidle
  rw [step_write h hr (ofOffset_offset .cmd),
    writeTarget_performed (s := { s with agenda := rest }) w rfl (.inl hidle)]
  rfl

/-- Settles O5: either agenda gives the engine its turn, and taking the entry off touches neither `STATUS` nor `CMD`. -/
theorem stepRunsTheDecodedInstruction : Obligations.StepRunsTheDecodedInstruction := by
  intro s i hbusy hi
  refine ⟨fun hempty => ?_, fun rest hengine => ?_⟩
  · rw [step_nil hempty, engineTurn_ok exec hbusy hi]
  · rw [step_engine hengine, engineTurn_ok (s := { s with agenda := rest }) exec hbusy hi]

/-! ### Nothing stops (R239) -/

theorem answersNext_engineTurn (s : State) : AnswersNext (engineTurn exec s) := by
  cases hb : s.status.busy with
  | false => exact ⟨s, engineTurn_idle exec hb⟩
  | true =>
    obtain ⟨t, h, -⟩ := engineTurn_completes hb
    exact ⟨t, h⟩

theorem answersNext_exec (i : Instr) (s : State) : AnswersNext (exec i s) := by
  obtain ⟨t, h, -⟩ := exec_completes i s
  exact ⟨t, h⟩

/-- Settles O8: a step is the engine's turn or an event, and an event from outside has a next state of its own. -/
theorem noStepAndNoInstructionStops : Obligations.NoStepAndNoInstructionStops := by
  refine ⟨fun s => ?_, answersNext_exec⟩
  rcases step_cases s with ⟨-, hstep⟩ | ⟨rest, -, hstep⟩ | ⟨tr, rest, -, hstep⟩ | ⟨rest, -, hstep⟩ |
    ⟨rest, -, hstep⟩ | ⟨n, rest, -, hstep⟩
  · rw [hstep]; exact answersNext_engineTurn s
  · rw [hstep]; exact answersNext_engineTurn { s with agenda := rest }
  · exact ⟨_, hstep⟩
  · exact ⟨_, hstep⟩
  · exact ⟨_, hstep⟩
  · exact ⟨_, hstep⟩

/-! ### An error is precise (R237) -/

/-- An instruction that leaves `ERR = 1` has taken an exception, from the state it started in. -/
theorem exec_err {i : Instr} {s t : State} (h : exec i s = .next t) (herr : t.status.err = true) :
    ∃ x, t = s.takeException x := by
  rcases exec_next_cases h with hexc | ⟨out, -, -, rfl⟩
  · exact hexc
  · rw [succeed_status, succeeded_err] at herr
    cases herr

theorem engineTurn_err {s t : State} (hbusy : s.status.busy = true) (h : engineTurn exec s = .next t)
    (herr : t.status.err = true) : ∃ x, t = s.takeException x := by
  cases hd : decode s.cmd with
  | ok i =>
    rw [engineTurn_ok exec hbusy hd] at h
    exact exec_err h herr
  | error x =>
    rw [engineTurn_error exec hbusy hd] at h
    cases h
    exact ⟨x, rfl⟩

/-- Settles O11: the completion in error is an exception taken at the engine's turn, and its code is one of R230. -/
theorem errorsArePrecise : Obligations.ErrorsArePrecise := by
  intro s t hbusy hturn hstep herr
  rw [step_engineTurn hturn] at hstep
  obtain ⟨x, rfl⟩ := engineTurn_err (s := { s with agenda := s.agenda.tail }) hbusy hstep herr
  obtain ⟨hle, hne⟩ := exc_code_bounds x
  exact ⟨x.code, Nat.pos_of_ne_zero fun h0 => hne (BitVec.eq_of_toNat_eq h0), hle, completedInError_takeException _ x⟩

/-! ### What a completion leaves (R235, R236) -/

/-- `st'` is `STATUS` after a completion, `st` the one before: `WRBUSY` kept, `ERRCODE` a code of R230 where `ERR` is 1
and 0 where it is not. -/
def CompletionStatus (st st' : Status) : Prop :=
  st'.busy = false ∧ st'.done = true ∧ st'.wrbusy = st.wrbusy ∧ (st'.err = true ↔ st'.errcode ≠ 0#4) ∧
  st'.errcode.toNat ≤ 6

theorem completionStatus_succeeded (st : Status) : CompletionStatus st st.succeeded := by
  simp [CompletionStatus]

theorem completionStatus_failed (st : Status) (x : Exc) : CompletionStatus st (st.failed x) := by
  simp [CompletionStatus, exc_code_bounds x]

theorem exec_completionStatus {i : Instr} {s t : State} (h : exec i s = .next t) :
    CompletionStatus s.status t.status := by
  rcases exec_next_cases h with ⟨x, rfl⟩ | ⟨out, -, -, rfl⟩
  · exact completionStatus_failed s.status x
  · rw [registersAfter_frame]
    exact completionStatus_succeeded s.status

/-- No command writes `IEN`, `CMD`, an operand register or a field of the model's own (R27, R29, R31 to R33, R38). -/
theorem exec_frame {i : Instr} {s t : State} (h : exec i s = .next t) : t = { s with
    status := t.status
    outlen := t.outlen
    cnt := t.cnt
    ksb := t.ksb
    hash := t.hash
    prior := t.prior
    buf := t.buf } := by
  rcases exec_next_cases h with ⟨x, rfl⟩ | ⟨out, -, -, rfl⟩
  · rfl
  · rw [registersAfter_frame]
    rfl

/-- Settles O12: an instruction answers a next state, and the lemmas above say what that state is. -/
theorem everyInstructionCompletesAndKeepsTheOperandRegisters :
    Obligations.EveryInstructionCompletesAndKeepsTheOperandRegisters := by
  intro i s
  obtain ⟨t, h⟩ := answersNext_exec i s
  obtain ⟨hbusy, hdone, hwrbusy, herr, hcode⟩ := exec_completionStatus h
  refine ⟨t, h, hbusy, hdone, hwrbusy, herr, hcode, fun he => ?_, exec_frame h⟩
  obtain ⟨x, rfl⟩ := exec_err h he
  exact takeException_outlen s x

/-! ### The interrupt output (R240) -/

/-- Settles O49: bits 1 and 2 of `STATUS` are `DONE` and `ERR`, bits 0 and 1 of `IEN` their enables (R24, R25). -/
theorem irqIsAFunctionOfStatusAndIen : Obligations.IrqIsAFunctionOfStatusAndIen := by
  refine ⟨fun s => ?_, rfl⟩
  simp only [status_toWord_getLsbD, ien_toWord_getLsbD]
  rfl

end Sys2Proof.Proofs
end

section
/-! The write filter of 60_exceptions.md R244, row by row. -/

namespace Sys2Proof.Proofs

open Sys2Proof Sys2Proof.Machine Sys2Proof.Laws

/-! ### The rows of R244 are the branches of the filter -/

theorem readOnlyRow_iff (tg : Target) : ReadOnlyRow tg ↔ readOnly tg = true := by
  cases tg with
  | window a => simp [ReadOnlyRow, readOnly]
  | reg r => cases r <;> simp [ReadOnlyRow, readOnly]

theorem discardedRow_iff (tg : Target) :
    DiscardedRow tg ↔ readOnly tg = false ∧ writableWhileBusy tg = false := by
  cases tg with
  | window a => simp [DiscardedRow, readOnly, writableWhileBusy]
  | reg r => cases r <;> simp [DiscardedRow, readOnly, writableWhileBusy]

theorem writeTarget_readOnly {tg : Target} (s : State) (v : Word) (h : ReadOnlyRow tg) : s.writeTarget v tg = s := by
  rw [State.writeTarget, if_pos ((readOnlyRow_iff tg).1 h)]

theorem writeTarget_discarded {s : State} {tg : Target} (v : Word) (hb : s.status.busy = true) (h : DiscardedRow tg) :
    s.writeTarget v tg = { s with status := s.status.writeDiscarded } := by
  obtain ⟨hro, hw⟩ := (discardedRow_iff tg).1 h
  simp [State.writeTarget, hro, hw, hb]

theorem writeTarget_ien (s : State) (v : Word) : s.writeTarget v (.reg .ien) = { s with ien := ienOfWord v } :=
  writeTarget_performed v rfl (.inr rfl)

/-! ### `WRBUSY` (R25, R244) -/

@[simp] theorem softReset_status (s : State) : (softReset s).status = ⟨false, false, false, false, 0#4⟩ := by
  unfold softReset; split <;> rfl

/-- Only a discarded write sets `WRBUSY`: a performed one clears it or keeps it. -/
theorem storeTarget_wrbusy {s : State} {v : Word} {tg : Target} (h : (s.storeTarget v tg).status.wrbusy = true) :
    s.status.wrbusy = true := by
  cases tg with
  | window a => exact h
  | reg r =>
    cases r with
    | ctrl =>
      rw [State.storeTarget] at h
      split at h
      · rw [softReset_status] at h
        cases h
      · exact h
    | status => exact (Bool.and_eq_true_iff.1 h).1
    | _ => exact h

theorem writeTarget_wrbusy_idle {s : State} {v : Word} {tg : Target} (hidle : s.status.busy = false)
    (h : (s.writeTarget v tg).status.wrbusy = true) : s.status.wrbusy = true := by
  cases hro : readOnly tg with
  | true =>
    rw [writeTarget_readOnly s v ((readOnlyRow_iff tg).2 hro)] at h
    exact h
  | false =>
    rw [writeTarget_performed v hro (.inl hidle)] at h
    exact storeTarget_wrbusy h

/-- Settles O56: a well-formed write is the filter's answer for its target, one row of R244 for each clause. -/
theorem writeFilterWhileBusy : Obligations.WriteFilterWhileBusy := by
  intro s off v tg rest h hr htg
  rw [step_write h hr htg]
  refine ⟨fun hro => ?_, fun hbusy hrow => ?_, fun hoff => ?_, fun _ hstatus => ?_, fun _ hctrl h1 => ?_,
    fun _ hctrl h0 => ?_, fun hidle => ⟨_, rfl, fun hset => ?_⟩⟩
  · rw [writeTarget_readOnly _ v hro]
    rfl
  · rw [writeTarget_discarded (s := { s with agenda := rest }) v hbusy hrow]
    rfl
  · obtain rfl : tg = .reg .ien := by
      rw [hoff] at htg
      exact Option.some.inj (htg.symm.trans (ofOffset_offset .ien))
    rw [writeTarget_ien]
    rfl
  · rw [hstatus, writeTarget_status]
    rfl
  · rw [hctrl, writeTarget_ctrl, if_pos h1]
    exact ⟨_, rfl, rfl, softReset_status _⟩
  · rw [hctrl, writeTarget_ctrl, h0]
    rfl
  · exact writeTarget_wrbusy_idle (s := { s with agenda := rest }) hidle hset

end Sys2Proof.Proofs
end

section
/-! The reset input (70_reset_and_hazards.md R270, R272): each of its two edges, and a transaction between them, as a step,
and what the registers and `BUF` read as after an edge. -/

namespace Sys2Proof.Proofs

open Sys2Proof Sys2Proof.Machine Sys2Proof.Laws

/-! ### The reset input as a step (log entry 7) -/

theorem step_rstAssert {s : State} {rest : List Event} (h : s.agenda = .rstAssert :: rest) :
    step s = .next (hardwareReset { s with agenda := rest }) :=
  step_cons h

theorem step_rstRelease {s : State} {rest : List Event} (h : s.agenda = .rstRelease :: rest) :
    step s = .next (releaseReset { s with agenda := rest }) :=
  step_cons h

theorem transact_asserted {s : State} (hr : s.rstAsserted = true) (tr : Transaction) :
    s.transact tr = s.respond none :=
  if_pos hr

theorem step_bus_asserted {s : State} {tr : Transaction} {rest : List Event} (h : s.agenda = .bus tr :: rest)
    (hr : s.rstAsserted = true) : step s = .next { s with agenda := rest, response := none } := by
  rw [step_cons h, handleEvent, transact_asserted (s := { s with agenda := rest }) hr]
  rfl

/-! ### What the edges leave to read -/

/-- `BUF` and the model's own fields, all that the assertion sets beside the registers, enter no register's value. -/
theorem readReg_hardwareReset (s : State) (r : Reg) : (hardwareReset s).readReg r = State.reset.readReg r := by
  rw [← readReg_resetRegisters s r]
  cases r <;> rfl

theorem readReg_releaseReset (s : State) (r : Reg) : (releaseReset s).readReg r = State.reset.readReg r := by
  rw [← readReg_resetRegisters s r]
  cases r <;> rfl

theorem bufByte_releaseReset (s : State) (a : Nat) : (releaseReset s).bufByte a = s.bufByte a :=
  bufByte_congr (releaseReset_buf s) (releaseReset_bufDraw s) a

/-- Settles O59: the assertion empties `BUF` and draws its bytes anew, the release sets the registers only, and between
the two a transaction finds the input asserted. -/
theorem hardwareResetClearsRegistersAndForgetsBuf : Obligations.HardwareResetClearsRegistersAndForgetsBuf := by
  intro s rest
  refine ⟨fun hassert => ?_, fun tr hbus hr => step_bus_asserted hbus hr, fun hrelease => ?_⟩
  · exact ⟨_, step_rstAssert hassert, rfl, hardwareReset_rstAsserted _, hardwareReset_buf _, hardwareReset_bufDraw _,
      Nat.lt_succ_self _, readReg_hardwareReset _⟩
  · exact ⟨_, step_rstRelease hrelease, rfl, releaseReset_rstAsserted _, readReg_releaseReset _,
      bufByte_releaseReset { s with agenda := rest }⟩

end Sys2Proof.Proofs
end
